-- ==== Sys2Proof/Word.lean ====
section
/-! DEFINITION. The words of the block and their plainest arithmetic (00_scope.md R5, R7). -/

namespace Sys2Proof

/-- A byte is an 8-bit unsigned value (R7). Every datum the block stores or moves is one byte (R65). -/
abbrev Byte := BitVec 8

/-- A read or write counter: `CNT_W = 8` bits, counting modulo `2^CNT_W` (R5, R22). -/
abbrev Count := BitVec 8

/-- The 24-bit command word `OPC A B` (R80). -/
abbrev CommandWord := BitVec 24

/-- The 16-bit response word `ST D` (R82). -/
abbrev ResponseWord := BitVec 16

/-- Addition of 1 to a counter that stops at `0xFF` and never wraps (R24). -/
def satSucc (n : Byte) : Byte := if n = 0xFF#8 then n else n + 1#8

/-- `zext_8` of a truth value: 1 or 0 (R7). -/
def boolByte (b : Bool) : Byte := if b then 1#8 else 0#8

end Sys2Proof
end

