-- ==== Sys2Proof/Config.lean ====
section
/-! DEFINITION. What the block is built with and what surrounds it: the instances (R3), the byte spaces (R60), the ports
and the external agents' steps (R4), the implementation parameters and their constraints (R5, R6), the protocol
constants (R357), and the free values: what the spec leaves open is an opaque constant here, about which nothing can
be proved. -/

namespace Sys2Proof

/-- The three circular-buffer instances (R3): EQ is 0, RX is 1, TX is 2; 3 is reserved. -/
inductive Inst where
  | eq
  | rx
  | tx
deriving DecidableEq, Repr, Inhabited

/-- The writable byte-addressed spaces (R60). `DESC`, the fourth space, is read-only and is a parameter. -/
inductive Space where
  | cbMem (i : Inst)
  | cmdBuf
  | sample
deriving DecidableEq, Repr, Inhabited

/-- The command ports, one for each external agent that issues operations (R4): the receiver, the transmitter, the
device, and the sample-ready sources `PIN_s`. `N_SRC` is at most 32 (R5); a source at or above it does not exist. -/
inductive Port where
  | rxi
  | txi
  | dev
  | pin (s : Fin 32)
deriving DecidableEq, Repr, Inhabited

/-- The owners of a timed wait (R36): SES has at most one, and a port's one outstanding operation has at most one
(log entry 15). -/
inductive Wait where
  | ses
  | port (p : Port)
deriving DecidableEq, Repr, Inhabited

/-- The transitions that may be taken next (R320): a step of SES or DSP, a new port issue, the transition of a held
port operation, an expiry by TMR (R12), an acknowledgement by DEV of a device request (R291) or of a write forward
(R222), and a change of the reset input (R340). -/
inductive Stimulus where
  | ses
  | dsp
  | issue (p : Port) (w : CommandWord)
  | resume (p : Port)
  | expire (w : Wait)
  | ackRequest
  | ackForward
  | resetPin (asserted : Bool)
deriving DecidableEq, Repr, Inhabited

/-- The OPEN implementation parameters (R5). A model takes each as an argument: they are a field of State that no step
writes. The parameters that the spec fixes are constants below. -/
structure Config where
  /-- `CAP_EQ`, `CAP_RX`, `CAP_TX`: capacities of the three instances. -/
  capEq : Nat
  capRx : Nat
  capTx : Nat
  /-- `N_SRC`: the number of sample-ready sources. -/
  nSrc : Nat
  /-- `SAMPLE_SIZE`: bytes in the sample buffer. -/
  sampleSize : Nat
  /-- `DESC`: the capability descriptor; `DESC_LEN` is its length. -/
  desc : List Byte
  /-- `NEG_BAUD`: the negotiated link rate. -/
  negBaud : Nat
  /-- `T_RESET_MS`: the sleep in state Reset. -/
  tResetMs : Nat
  /-- `T_PUSH_MS`: the timeout of the session's event pushes; finite, as a number. -/
  tPushMs : Nat
  /-- `TO_UNIT_MS`: the unit of the timeout field of EQ_PUSH. -/
  toUnitMs : Nat
  /-- `RESET_SENTINEL`: payload byte 0 of a WRITE that means "device reset". -/
  resetSentinel : Byte
deriving DecidableEq, Repr

namespace Config

/-- `CNT_W` (R5). -/
def cntW : Nat := 8

/-- `MAX_PAYLOAD` (R5). -/
def maxPayload : Nat := 32

/-- `MAX_MODES` (R5). No rule of the block reads it: a mode is not checked (R294). -/
def maxModes : Nat := 8

/-- `INIT_BAUD` (R5). -/
def initBaud : Nat := 2400

/-- `T_START_MS` (R5, R357). -/
def tStartMs : Nat := 500

/-- `T_ACK_MS` (R5, R357). -/
def tAckMs : Nat := 256

/-- `T_HEARTBEAT_MS` (R5, R357). -/
def tHeartbeatMs : Nat := 1000

/-- `T_SPEED_MS` (R5, R357). -/
def tSpeedMs : Nat := 10

/-- `WRITE_ID` (R5): the spec's decision D30 (log entry 7). -/
def writeId : BitVec 3 := 4#3

/-- The powers of two a capacity may be: `1` to `2^(CNT_W-1)` (R5). -/
def powersOfTwo : List Nat := [1, 2, 4, 8, 16, 32, 64, 128]

/-- The capacity of an instance (R120). -/
def cap (c : Config) : Inst → Nat
  | .eq => c.capEq
  | .rx => c.capRx
  | .tx => c.capTx

/-- The constraints of R5, all of them. The model refuses a configuration that breaks one (R6). -/
def valid (c : Config) : Bool :=
  powersOfTwo.contains c.capEq && powersOfTwo.contains c.capRx && powersOfTwo.contains c.capTx &&
  decide (64 ≤ c.capTx) && decide (1 ≤ c.nSrc) && decide (c.nSrc ≤ 32) &&
  decide (34 ≤ c.sampleSize) && decide (c.sampleSize ≤ 256) &&
  (c.desc.getLast? == some 0x04#8) && decide (110 ≤ c.tResetMs)

/-- One valid configuration, the one `State.reset` has (DESIGN CHOICE, log entry 2): the values that the vectors of
95_test_vectors.md use where they name any. No rule depends on the choice and no statement rests on it. -/
def vectors : Config where
  capEq := 8
  capRx := 8
  capTx := 64
  nSrc := 4
  sampleSize := 64
  desc := [0x40#8, 0x21#8, 0x9E#8, 0x04#8]
  negBaud := 57600
  tResetMs := 110
  tPushMs := 100
  toUnitMs := 1
  resetSentinel := 0x11#8

/-- FREE VALUE (R32, U8, U9; log entry 5). The byte an address of a space holds after the `n`-th block reset and until
it is written. -/
opaque resetDraw : Nat → Space → Nat → Byte

/-- FREE VALUE (R156, R320, U24, U25; log entry 1). The transition that is taken at the `n`-th free choice. -/
opaque environment : Nat → Stimulus

end Config

end Sys2Proof
end

