-- ==== Sys2Proof/Syntax.lean ====
section
/-! DEFINITION. The instructions: one constructor for each row of spec/opcode_table.json. Operands that a row reads are
arguments; a field that the row ignores (R81) has none, as in the assembler syntax of R86. -/

namespace Sys2Proof

/-- The rows of the opcode table. `a` and `b` are the operand bytes A and B of a command word (R80); `lll` and `xxx`
the fields of a frame byte (R90); `n` the info of an event byte (R102). -/
inductive Instr where
  -- Circular buffer controller: 41_circular_buffer.md R130 to R135.
  | cbPushRx (a : Byte)
  | cbPopTx
  | cbSizeEq
  | cbSizeRx
  | cbSizeTx
  | cbEmptyEq
  | cbEmptyRx
  | cbEmptyTx
  | cbFullEq
  | cbFullRx
  | cbFullTx
  | cbDropsEq
  | cbDropsRx
  | cbDropsTx
  -- Checksum generator: 43_frame_codec.md R190 to R194.
  | ckInit
  | ckSeed (a : Byte)
  | ckFold (a : Byte)
  | ckRead
  | ckCheck (a : Byte)
  -- Frame codec: 43_frame_codec.md R180 to R183.
  | frMakeSys (a b : Byte)
  | frMakeCmd (a b : Byte)
  | frMakeInfo (a b : Byte)
  | frMakeData (a b : Byte)
  | frClass (a : Byte)
  | frContent (a : Byte)
  | frLength (a : Byte)
  -- Event codec: 42_event_queue.md R160 to R162.
  | evMakeData (a : Byte)
  | evMakeScale (a : Byte)
  | evMakeMode (a : Byte)
  | evMakeReset (a : Byte)
  | evMakeStart (a : Byte)
  | evMakeStop (a : Byte)
  | evMakeRequest (a : Byte)
  | evMakeEeprom (a : Byte)
  | evKind (a : Byte)
  | evInfo (a : Byte)
  -- Event queue: 42_event_queue.md R152, R153.
  | eqTryPush (a : Byte)
  | eqPush (a b : Byte)
  -- Data transmission: 45_session.md R262.
  | sendData0 (a b : Byte)
  | sendData1 (a b : Byte)
  | sendData2 (a b : Byte)
  | sendData3 (a b : Byte)
  | sendData4 (a b : Byte)
  | sendData5 (a b : Byte)
  | sendData6 (a b : Byte)
  | sendData7 (a b : Byte)
  -- Sample buffer and status: 45_session.md R260, R261, R264 to R267.
  | sbWrite (a b : Byte)
  | sbRead (a : Byte)
  | sesState
  | sesResult
  | linkRead
  | faultRead
  -- Ownership refusals and reserved encodings: R85, R136, R159.
  | illegal10
  | illegal12
  | illegal13
  | illegal14
  | illegal15
  | illegal17
  | illegal1B
  | illegal1F
  | illegal23
  | illegal27
  | illegal62
  | illegal63
  -- Every other unlisted opcode: R85, R311.
  | illegalOpcode (opc : Byte)
  -- Wire frames: 45_session.md R253; 44_command_reader.md R214 to R221.
  | waitAckAck
  | sysNack
  | sysOther (lll xxx : BitVec 3)
  | cmdLenReserved (lll xxx : BitVec 3)
  | cmdSelect (lll : BitVec 3)
  | cmdWrite (lll : BitVec 3)
  | cmdOther (lll xxx : BitVec 3)
  | infoFrame (lll xxx : BitVec 3)
  | dataFrame (lll xxx : BitVec 3)
  -- Events: 46_dispatcher.md R292 to R299.
  | eventData (n : BitVec 5)
  | eventScale (n : BitVec 5)
  | eventMode (n : BitVec 5)
  | eventReset (n : BitVec 5)
  | eventStart (n : BitVec 5)
  | eventStop (n : BitVec 5)
  | eventRequest (n : BitVec 5)
  | eventEeprom (n : BitVec 5)
deriving DecidableEq, Repr

end Sys2Proof
end

