-- ==== Sys2Proof/WellFormed.lean ====
section
/-! DEFINITION. Which terms of `Instr` are instructions of the block: the operand values that a row's encoding admits. -/

namespace Sys2Proof

/-- The opcodes of the opcode map R84. -/
def legalOpcodes : List Byte :=
  [0x11#8, 0x16#8, 0x18#8, 0x19#8, 0x1A#8, 0x1C#8, 0x1D#8, 0x1E#8, 0x20#8, 0x21#8, 0x22#8, 0x24#8, 0x25#8, 0x26#8] ++
  [0x30#8, 0x31#8, 0x32#8, 0x33#8, 0x34#8, 0x40#8, 0x41#8, 0x42#8, 0x43#8, 0x44#8, 0x45#8, 0x46#8] ++
  [0x50#8, 0x51#8, 0x52#8, 0x53#8, 0x54#8, 0x55#8, 0x56#8, 0x57#8, 0x58#8, 0x59#8, 0x60#8, 0x61#8] ++
  [0x70#8, 0x71#8, 0x72#8, 0x73#8, 0x74#8, 0x75#8, 0x76#8, 0x77#8, 0x78#8, 0x79#8, 0x7A#8, 0x7B#8, 0x7C#8, 0x7D#8]

/-- The illegal opcodes that have a row of their own: the ownership refusals and instance 3 (R85). -/
def refusedOpcodes : List Byte :=
  [0x10#8, 0x12#8, 0x13#8, 0x14#8, 0x15#8, 0x17#8, 0x1B#8, 0x1F#8, 0x23#8, 0x27#8, 0x62#8, 0x63#8]

/-- Well-formed instructions. The catch-all row has the opcodes that no other row has (R85); SYS.OTHER is every SYS
byte but NACK (R214); CMD.LEN_RESERVED has `LLL` 6 or 7 and the other CMD rows `LLL` 0 to 5 (R215, R216); CMD.OTHER
has the ids that are neither SELECT nor `WRITE_ID` (R219). -/
def Instr.wf : Instr → Bool
  | .illegalOpcode opc => !legalOpcodes.contains opc && !refusedOpcodes.contains opc
  | .sysOther lll xxx => !(lll == 0#3 && xxx == 2#3)
  | .cmdLenReserved lll _ => decide (6 ≤ lll.toNat)
  | .cmdSelect lll => decide (lll.toNat ≤ 5)
  | .cmdWrite lll => decide (lll.toNat ≤ 5)
  | .cmdOther lll xxx => decide (lll.toNat ≤ 5) && xxx != 3#3 && xxx != Config.writeId
  | _ => true

end Sys2Proof
end

