-- ==== Sys2Proof/Decode.lean ====
section
/-! DEFINITION. The three decoders of the block and their encoder: command words (30_encoding.md R80 to R86), frame
bytes (R90 to R101), event bytes (R102, R103). Each is total. -/

namespace Sys2Proof

/-! ### Fields -/

/-- `OPC`, bits 23:16 of a command word (R80). -/
def opcOf (w : CommandWord) : Byte := w.extractLsb' 16 8

/-- Operand `A`, bits 15:8 (R80). -/
def opAOf (w : CommandWord) : Byte := w.extractLsb' 8 8

/-- Operand `B`, bits 7:0 (R80). -/
def opBOf (w : CommandWord) : Byte := w.extractLsb' 0 8

/-- The command word `OPC A B` (R80). -/
def mkCommand (opc a b : Byte) : CommandWord := opc ++ a ++ b

/-- `CC`, bits 7:6 of a frame byte (R90). -/
def classOf (f : Byte) : BitVec 2 := f.extractLsb' 6 2

/-- `LLL`, bits 5:3 of a frame byte (R90). -/
def selOf (f : Byte) : BitVec 3 := f.extractLsb' 3 3

/-- `XXX`, bits 2:0 of a frame byte (R90). -/
def contentOf (f : Byte) : BitVec 3 := f.extractLsb' 0 3

/-- The frame byte `CCLLLXXX` (R90). -/
def mkFrame (cc : BitVec 2) (lll xxx : BitVec 3) : Byte := cc ++ lll ++ xxx

/-- The kind, bits 7:5 of an event byte (R102). -/
def kindOf (e : Byte) : BitVec 3 := e.extractLsb' 5 3

/-- The info, bits 4:0 of an event byte (R102). -/
def infoOf (e : Byte) : BitVec 5 := e.extractLsb' 0 5

/-- The event byte `KKKNNNNN` (R102). -/
def mkEvent (k : BitVec 3) (n : BitVec 5) : Byte := k ++ n

/-! ### Decoders -/

/-- What a decoder is given: the word or byte, with the unit that reads it. A command word is read by a port; a byte
by SES waiting for the acknowledgement, by SES in WaitingForCommand, or by DSP from the event queue. -/
inductive Code where
  | command (w : CommandWord)
  | ackByte (b : Byte)
  | frameByte (f : Byte)
  | eventByte (e : Byte)
deriving DecidableEq, Repr

/-- Why a decoder gives no instruction. Only the acknowledgement wait has bytes with no row: every byte but ACK sends
the session back to Start by the procedure of R253 itself. -/
inductive DecodeReject where
  | notAcknowledge (b : Byte)
deriving DecidableEq, Repr

/-- The opcode map (R84), the rows of the refused opcodes (R85), and the catch-all (R311). It never examines the
operands of an illegal opcode. -/
def decodeOpcode (opc a b : Byte) : Instr :=
  match opc.toNat with
  | 0x11 => .cbPushRx a
  | 0x16 => .cbPopTx
  | 0x18 => .cbSizeEq
  | 0x19 => .cbSizeRx
  | 0x1A => .cbSizeTx
  | 0x1C => .cbEmptyEq
  | 0x1D => .cbEmptyRx
  | 0x1E => .cbEmptyTx
  | 0x20 => .cbFullEq
  | 0x21 => .cbFullRx
  | 0x22 => .cbFullTx
  | 0x24 => .cbDropsEq
  | 0x25 => .cbDropsRx
  | 0x26 => .cbDropsTx
  | 0x30 => .ckInit
  | 0x31 => .ckSeed a
  | 0x32 => .ckFold a
  | 0x33 => .ckRead
  | 0x34 => .ckCheck a
  | 0x40 => .frMakeSys a b
  | 0x41 => .frMakeCmd a b
  | 0x42 => .frMakeInfo a b
  | 0x43 => .frMakeData a b
  | 0x44 => .frClass a
  | 0x45 => .frContent a
  | 0x46 => .frLength a
  | 0x50 => .evMakeData a
  | 0x51 => .evMakeScale a
  | 0x52 => .evMakeMode a
  | 0x53 => .evMakeReset a
  | 0x54 => .evMakeStart a
  | 0x55 => .evMakeStop a
  | 0x56 => .evMakeRequest a
  | 0x57 => .evMakeEeprom a
  | 0x58 => .evKind a
  | 0x59 => .evInfo a
  | 0x60 => .eqTryPush a
  | 0x61 => .eqPush a b
  | 0x70 => .sendData0 a b
  | 0x71 => .sendData1 a b
  | 0x72 => .sendData2 a b
  | 0x73 => .sendData3 a b
  | 0x74 => .sendData4 a b
  | 0x75 => .sendData5 a b
  | 0x76 => .sendData6 a b
  | 0x77 => .sendData7 a b
  | 0x78 => .sbWrite a b
  | 0x79 => .sbRead a
  | 0x7A => .sesState
  | 0x7B => .sesResult
  | 0x7C => .linkRead
  | 0x7D => .faultRead
  | 0x10 => .illegal10
  | 0x12 => .illegal12
  | 0x13 => .illegal13
  | 0x14 => .illegal14
  | 0x15 => .illegal15
  | 0x17 => .illegal17
  | 0x1B => .illegal1B
  | 0x1F => .illegal1F
  | 0x23 => .illegal23
  | 0x27 => .illegal27
  | 0x62 => .illegal62
  | 0x63 => .illegal63
  | _ => .illegalOpcode opc

/-- The decoder of the command ports, total on all `2^24` words (R85). -/
def decodeCommand (w : CommandWord) : Instr := decodeOpcode (opcOf w) (opAOf w) (opBOf w)

/-- The decoder of WaitingForAck: ACK (`0x04`, R95) has a row, every other byte has none (R253). -/
def decodeAck (b : Byte) : Except DecodeReject Instr :=
  if b = 0x04#8 then .ok .waitAckAck else .error (.notAcknowledge b)

/-- The frame decoder of WaitingForCommand: the class first, then the length check, then the command id (R98, R214 to
R221). -/
def decodeFrame (f : Byte) : Instr :=
  match (classOf f).toNat with
  | 0 => if f = 0x02#8 then .sysNack else .sysOther (selOf f) (contentOf f)
  | 1 =>
    if 6 ≤ (selOf f).toNat then .cmdLenReserved (selOf f) (contentOf f)
    else if contentOf f = 3#3 then .cmdSelect (selOf f)
    else if contentOf f = Config.writeId then .cmdWrite (selOf f)
    else .cmdOther (selOf f) (contentOf f)
  | 2 => .infoFrame (selOf f) (contentOf f)
  | _ => .dataFrame (selOf f) (contentOf f)

/-- The event decoder of DSP: it switches on the 3-bit kind (R290, R103). -/
def decodeEvent (e : Byte) : Instr :=
  match (kindOf e).toNat with
  | 0 => .eventData (infoOf e)
  | 1 => .eventScale (infoOf e)
  | 2 => .eventMode (infoOf e)
  | 3 => .eventReset (infoOf e)
  | 4 => .eventStart (infoOf e)
  | 5 => .eventStop (infoOf e)
  | 6 => .eventRequest (infoOf e)
  | _ => .eventEeprom (infoOf e)

/-- Decoding: the unit's decoder on the word or byte it reads. -/
def decode : Code → Except DecodeReject Instr
  | .command w => .ok (decodeCommand w)
  | .ackByte b => decodeAck b
  | .frameByte f => .ok (decodeFrame f)
  | .eventByte e => .ok (decodeEvent e)

/-! ### Encoder -/

/-- A command word, as a code. -/
def command (opc a b : Byte) : Code := .command (mkCommand opc a b)

/-- The word or byte of an instruction, and the unit that reads it. An unused operand assembles as 0 (R86). -/
def encode : Instr → Code
  | .cbPushRx a => command 0x11#8 a 0#8
  | .cbPopTx => command 0x16#8 0#8 0#8
  | .cbSizeEq => command 0x18#8 0#8 0#8
  | .cbSizeRx => command 0x19#8 0#8 0#8
  | .cbSizeTx => command 0x1A#8 0#8 0#8
  | .cbEmptyEq => command 0x1C#8 0#8 0#8
  | .cbEmptyRx => command 0x1D#8 0#8 0#8
  | .cbEmptyTx => command 0x1E#8 0#8 0#8
  | .cbFullEq => command 0x20#8 0#8 0#8
  | .cbFullRx => command 0x21#8 0#8 0#8
  | .cbFullTx => command 0x22#8 0#8 0#8
  | .cbDropsEq => command 0x24#8 0#8 0#8
  | .cbDropsRx => command 0x25#8 0#8 0#8
  | .cbDropsTx => command 0x26#8 0#8 0#8
  | .ckInit => command 0x30#8 0#8 0#8
  | .ckSeed a => command 0x31#8 a 0#8
  | .ckFold a => command 0x32#8 a 0#8
  | .ckRead => command 0x33#8 0#8 0#8
  | .ckCheck a => command 0x34#8 a 0#8
  | .frMakeSys a b => command 0x40#8 a b
  | .frMakeCmd a b => command 0x41#8 a b
  | .frMakeInfo a b => command 0x42#8 a b
  | .frMakeData a b => command 0x43#8 a b
  | .frClass a => command 0x44#8 a 0#8
  | .frContent a => command 0x45#8 a 0#8
  | .frLength a => command 0x46#8 a 0#8
  | .evMakeData a => command 0x50#8 a 0#8
  | .evMakeScale a => command 0x51#8 a 0#8
  | .evMakeMode a => command 0x52#8 a 0#8
  | .evMakeReset a => command 0x53#8 a 0#8
  | .evMakeStart a => command 0x54#8 a 0#8
  | .evMakeStop a => command 0x55#8 a 0#8
  | .evMakeRequest a => command 0x56#8 a 0#8
  | .evMakeEeprom a => command 0x57#8 a 0#8
  | .evKind a => command 0x58#8 a 0#8
  | .evInfo a => command 0x59#8 a 0#8
  | .eqTryPush a => command 0x60#8 a 0#8
  | .eqPush a b => command 0x61#8 a b
  | .sendData0 a b => command 0x70#8 a b
  | .sendData1 a b => command 0x71#8 a b
  | .sendData2 a b => command 0x72#8 a b
  | .sendData3 a b => command 0x73#8 a b
  | .sendData4 a b => command 0x74#8 a b
  | .sendData5 a b => command 0x75#8 a b
  | .sendData6 a b => command 0x76#8 a b
  | .sendData7 a b => command 0x77#8 a b
  | .sbWrite a b => command 0x78#8 a b
  | .sbRead a => command 0x79#8 a 0#8
  | .sesState => command 0x7A#8 0#8 0#8
  | .sesResult => command 0x7B#8 0#8 0#8
  | .linkRead => command 0x7C#8 0#8 0#8
  | .faultRead => command 0x7D#8 0#8 0#8
  | .illegal10 => command 0x10#8 0#8 0#8
  | .illegal12 => command 0x12#8 0#8 0#8
  | .illegal13 => command 0x13#8 0#8 0#8
  | .illegal14 => command 0x14#8 0#8 0#8
  | .illegal15 => command 0x15#8 0#8 0#8
  | .illegal17 => command 0x17#8 0#8 0#8
  | .illegal1B => command 0x1B#8 0#8 0#8
  | .illegal1F => command 0x1F#8 0#8 0#8
  | .illegal23 => command 0x23#8 0#8 0#8
  | .illegal27 => command 0x27#8 0#8 0#8
  | .illegal62 => command 0x62#8 0#8 0#8
  | .illegal63 => command 0x63#8 0#8 0#8
  | .illegalOpcode opc => command opc 0#8 0#8
  | .waitAckAck => .ackByte 0x04#8
  | .sysNack => .frameByte 0x02#8
  | .sysOther lll xxx => .frameByte (mkFrame 0#2 lll xxx)
  | .cmdLenReserved lll xxx => .frameByte (mkFrame 1#2 lll xxx)
  | .cmdSelect lll => .frameByte (mkFrame 1#2 lll 3#3)
  | .cmdWrite lll => .frameByte (mkFrame 1#2 lll Config.writeId)
  | .cmdOther lll xxx => .frameByte (mkFrame 1#2 lll xxx)
  | .infoFrame lll xxx => .frameByte (mkFrame 2#2 lll xxx)
  | .dataFrame lll xxx => .frameByte (mkFrame 3#2 lll xxx)
  | .eventData n => .eventByte (mkEvent 0#3 n)
  | .eventScale n => .eventByte (mkEvent 1#3 n)
  | .eventMode n => .eventByte (mkEvent 2#3 n)
  | .eventReset n => .eventByte (mkEvent 3#3 n)
  | .eventStart n => .eventByte (mkEvent 4#3 n)
  | .eventStop n => .eventByte (mkEvent 5#3 n)
  | .eventRequest n => .eventByte (mkEvent 6#3 n)
  | .eventEeprom n => .eventByte (mkEvent 7#3 n)

/-! ### The opcode table's numbers -/

/-- The code that a number of the opcode table stands for. A number of up to 24 bits that is not a byte is a command
word. A byte of the table does not say which of the three byte decoders reads it; the convention (DESIGN CHOICE, log
entry 11) is the first row in the table's order whose match value is the byte itself, else the first row that its mask
matches: so ACK is the acknowledgement's, the event bytes `0x20`, `0x60`, `0xA0` and `0xE0` are DSP's, and every other
byte is a frame byte. -/
def tableCode (nbits w : Nat) : Option Code :=
  if nbits = 8 then
    let b := BitVec.ofNat 8 w
    if b = 0x04#8 then some (.ackByte b)
    else if b = 0x20#8 ∨ b = 0x60#8 ∨ b = 0xA0#8 ∨ b = 0xE0#8 then some (.eventByte b)
    else some (.frameByte b)
  else if nbits ≤ 24 then some (.command (BitVec.ofNat 24 w))
  else none

/-- The instruction the decoder reads from a number of the opcode table. -/
def decodeTableWord (nbits w : Nat) : Option Instr :=
  match tableCode nbits w with
  | none => none
  | some c =>
    match decode c with
    | .ok i => some i
    | .error _ => none

end Sys2Proof
end

