-- ==== Sys2Proof/Machine/Memory.lean ====
section
/-! DEFINITION. A byte space as plain data: the list of the bytes written since reset (20_memory.md R60 to R67). -/

namespace Sys2Proof.Machine

/-- A byte space (R60): the bytes that have been written since reset, with their addresses, in one canonical form. -/
abbrev Memory := List Host.Cell

/-- The byte written at an address, if any. AN UNLISTED ADDRESS READS AS NO VALUE HERE: nothing has written it since
reset. What a machine that reads it gets is the free value of `State.readByte` (R32, log entry 5). -/
def Memory.read : Memory → Nat → Option Byte
  | [], _ => none
  | (b, v) :: rest, a => if b = a then some v else Memory.read rest a

/-- Write one byte, keeping the addresses strictly rising. -/
def Memory.write : Memory → Nat → Byte → Memory
  | [], a, v => [(a, v)]
  | (b, w) :: rest, a, v =>
    if a < b then (a, v) :: (b, w) :: rest
    else if a = b then (a, v) :: rest
    else (b, w) :: Memory.write rest a v

/-- Every address of a memory is above `n`, and they rise strictly. -/
def Memory.risesFrom : Nat → Memory → Bool
  | _, [] => true
  | n, (a, _) :: rest => decide (n ≤ a) && Memory.risesFrom (a + 1) rest

/-- The canonical form: addresses strictly rising. No entry equals what an unlisted address reads as, because an
unlisted address has no value and an entry has one; so equal memories are equal lists. -/
def Memory.wf (m : Memory) : Bool := m.risesFrom 0

/-- Every address of a memory is below the size of its space. -/
def Memory.below (n : Nat) (m : Memory) : Bool := m.all fun c => decide (c.1 < n)

end Sys2Proof.Machine
end

