-- ==== Sys2Proof/Machine/State.lean ====
section
/-! DEFINITION. The state of the block as plain data: every item of 10_state.md R22 to R36, the output histories of R38,
the parameters of R5, and the model's own fields; the reasons a step can stop; and the state after reset (R341). -/

namespace Sys2Proof.Machine

/-- One circular-buffer instance (R120): `CB_RD`, `CB_WR` (R22), `CB_DROP` (R24), `CB_MEM` (R23). -/
structure Cbc where
  rd : Count
  wr : Count
  drop : Byte
  mem : Memory
deriving DecidableEq, Repr

/-- `PEND[p]` of a port whose operation holds (R35): the command word, and the `EXPIRED` flag of its wait if the
operation is timed (R36). The wait's identity is the port: a port has at most one operation outstanding. -/
structure Held where
  word : CommandWord
  expired : Bool
deriving DecidableEq, Repr

/-- Where the procedure of a CMD frame stands (44_command_reader.md R210, R217, R218): waiting for payload byte `k`, for
the checksum byte, for room for the event `e`, or for DEV to acknowledge the write forward. -/
inductive CmdPoint where
  | payload (k : Nat)
  | checksum
  | push (e : Byte)
  | forward
deriving DecidableEq, Repr

/-- `SESS_PHASE` (R27): the wait point where SES stands (R240). `entry` is the entry of the current state, before its
first action; `command f pt` is inside the procedure of frame byte `f`; `stuck` follows BAD_STATE (R313). -/
inductive SesPhase where
  | entry
  | sleepRestart
  | txPut (k : Nat)
  | getAck
  | sleepSpeed
  | pushStart
  | getFrame
  | command (f : Byte) (pt : CmdPoint)
  | pushStop
  | stuck
deriving DecidableEq, Repr

/-- `DSP_PHASE` (R34), and the stuck agent of R313. -/
inductive DspPhase where
  | waitEvent
  | waitAck
  | stuck
deriving DecidableEq, Repr

/-- One completed operation: the port and its response word (R82). -/
structure Response where
  port : Port
  word : ResponseWord
deriving DecidableEq, Repr

/-- The number of command ports the model has: RXI, TXI, DEV, `PIN_0` to `PIN_31` (R4). -/
abbrev numPorts : Nat := 35

/-- The state of the machine. -/
structure State where
  /-- The OPEN parameters (R5). No step writes them. -/
  cfg : Config
  /-- Instance 0, EQ: the event queue's byte store (R3). -/
  cbEq : Cbc
  /-- Instance 1, RX (R3). -/
  cbRx : Cbc
  /-- Instance 2, TX (R3). -/
  cbTx : Cbc
  /-- `CK_ACC` (R25). -/
  ckAcc : Byte
  /-- `SESS_STATE` (R26). -/
  sessState : BitVec 3
  /-- `SESS_PHASE` (R27). -/
  sessPhase : SesPhase
  /-- `RD_CK` (R28). -/
  rdCk : Byte
  /-- `CMD_BUF` (R29). -/
  cmdBuf : Memory
  /-- `CMD_LEN` (R29). -/
  cmdLen : BitVec 6
  /-- `SES_RESULT` (R30). -/
  sesResult : BitVec 3
  /-- `LINK` (R31): bit 0 is `RX_EN`, bit 1 is `BAUD_SEL`. -/
  link : BitVec 2
  /-- `SAMPLE` (R32). -/
  sample : Memory
  /-- `FAULT` (R33). -/
  fault : Byte
  /-- `DSP_PHASE` (R34). -/
  dspPhase : DspPhase
  /-- `DSP_EV` (R34). -/
  dspEv : Byte
  /-- `PEND` (R35), one entry for each port. -/
  pend : Vector (Option Held) numPorts
  /-- `EXPIRED` (R36) of the wait SES stands at. -/
  sesExpired : Bool
  /-- The wire output (R38), in pop order. -/
  wireOut : List Byte
  /-- The device requests (R38): kind and info, in presentation order. -/
  devReqs : List (BitVec 3 × BitVec 5)
  /-- The write forwards (R38): the payloads, in order. -/
  writeFwds : List (List Byte)
  /-- The MODEL's own: the completed operations, in order (log entry 3). -/
  responses : List Response
  /-- The MODEL's own: the port whose operation `exec` is running. -/
  port : Port
  /-- The MODEL's own: the reset input is asserted (R340, log entry 4). -/
  rstAsserted : Bool
  /-- The MODEL's own: how many block resets there have been. -/
  epoch : Nat
  /-- The MODEL's own: the transitions chosen to be taken next, oldest first (log entry 1). -/
  inputs : List Stimulus
  /-- The MODEL's own: how many transitions the free choice has given (log entry 1). -/
  tick : Nat
deriving DecidableEq, Repr

/-- The reasons a step stops the machine. THERE ARE NONE, so nothing raises one: the block never stops (R358). Its port
faults (R310) and BAD_STATE (R313) are next states in which the block goes on. Safe: a fault that does not exist
proves nothing. -/
inductive Fault where
deriving DecidableEq, Repr

/-- The reasons the model gives no next state. -/
inductive Refusal where
  /-- Raised by an arm of `exec` whose instruction has no meaning yet. Safe: nothing is claimed of it. -/
  | notModelled (mnemonic : String)
  /-- Raised by `step` when the parameters break a constraint of R5, as R6 asks. Safe: no block has them. -/
  | badConfiguration
deriving DecidableEq, Repr

/-- An instance after reset: counters and drop count 0, contents unspecified (R22, R23, R24). -/
def Cbc.reset : Cbc where
  rd := 0#8
  wr := 0#8
  drop := 0#8
  mem := []

/-- The machine right after reset, with parameters `c` (R341). `rdCk`, `cmdLen` and `dspEv` are unspecified by the spec
and written before they are read (DESIGN CHOICE, log entry 6); no byte of a space is listed, so each reads as its free
draw (log entry 5). -/
def State.resetWith (c : Config) : State where
  cfg := c
  cbEq := Cbc.reset
  cbRx := Cbc.reset
  cbTx := Cbc.reset
  ckAcc := 0xFF#8
  sessState := 0#3
  sessPhase := .entry
  rdCk := 0#8
  cmdBuf := []
  cmdLen := 0#6
  sesResult := 7#3
  link := 0#2
  sample := []
  fault := 0#8
  dspPhase := .waitEvent
  dspEv := 0#8
  pend := Vector.replicate numPorts none
  sesExpired := false
  wireOut := []
  devReqs := []
  writeFwds := []
  responses := []
  port := .rxi
  rstAsserted := false
  epoch := 0
  inputs := []
  tick := 0

/-- The machine right after reset (R341, R342), with one valid configuration (DESIGN CHOICE, log entry 2). -/
def State.reset : State := State.resetWith Config.vectors

end Sys2Proof.Machine
end

