-- ==== Sys2Proof/Machine/Flags.lean ====
section
/-! DEFINITION. The block has no flag register (R37). Its condition codes are the status of each response (R83), the
sticky bits of FAULT (R33) and the error kinds of SES_RESULT (R30); this file gives them all. -/

namespace Sys2Proof.Machine

/-- The status names of a response (R83). -/
inductive Status where
  | ok
  | empty
  | full
  | timeout
  | refused
  | disabled
  | illegalOperand
  | illegalOpcode
deriving DecidableEq, Repr

/-- The status codes (R83). -/
def statusCode : Status → Byte
  | .ok => 0x00#8
  | .empty => 0x01#8
  | .full => 0x02#8
  | .timeout => 0x03#8
  | .refused => 0x04#8
  | .disabled => 0x05#8
  | .illegalOperand => 0xFE#8
  | .illegalOpcode => 0xFF#8

/-- The response word `ST D` (R82). -/
def responseWord (st : Status) (d : Byte) : ResponseWord := statusCode st ++ d

/-- The causes of a fault that an operation answers (R310); BAD_STATE has no response and is `badStateBit`. -/
inductive Cause where
  | illegalOpcode
  | illegalOperand
deriving DecidableEq, Repr

/-- The bit of a cause in FAULT (R33). -/
def causeBit : Cause → Byte
  | .illegalOpcode => 0x01#8
  | .illegalOperand => 0x02#8

/-- FAULT bit 2, BAD_STATE (R33, R313). -/
def badStateBit : Byte := 0x04#8

/-- The status of a cause (R310). -/
def causeStatus : Cause → Status
  | .illegalOpcode => .illegalOpcode
  | .illegalOperand => .illegalOperand

/-- The error kinds (R30, R314). -/
inductive ErrKind where
  | success
  | crcError
  | timeout
  | formatError
  | notExpectedCommand
deriving DecidableEq, Repr

/-- The codes of the error kinds in SES_RESULT (R30). -/
def errCode : ErrKind → BitVec 3
  | .success => 0#3
  | .crcError => 1#3
  | .timeout => 2#3
  | .formatError => 3#3
  | .notExpectedCommand => 4#3

/-- SESS_STATE values (R26). -/
def stStart : BitVec 3 := 0#3
def stReset : BitVec 3 := 1#3
def stInit : BitVec 3 := 2#3
def stWaitingForAck : BitVec 3 := 3#3
def stSetSpeed : BitVec 3 := 4#3
def stWaitingForCommand : BitVec 3 := 5#3

end Sys2Proof.Machine
end

