-- ==== Sys2Proof/Machine/Operands.lean ====
section
/-! DEFINITION. What the operations compute from their operand bytes: lengths and selectors (R92, R94), the frame byte
(R94), the event byte (R87, R102), the checksum (R185), the timeout code (R154), and the index of a port. -/

namespace Sys2Proof.Machine

/-- `log2` of a payload length, defined only for 1, 2, 4, 8, 16 and 32 (R94). -/
def log2Length (n : Byte) : Option (BitVec 3) :=
  if n = 1#8 then some 0#3
  else if n = 2#8 then some 1#3
  else if n = 4#8 then some 2#3
  else if n = 8#8 then some 3#3
  else if n = 16#8 then some 4#3
  else if n = 32#8 then some 5#3
  else none

/-- The class value of a class code: `c << 6` (R91). -/
def classValue (c : BitVec 2) : Byte := c.setWidth 8 <<< 6

/-- makeFrame (R94), with the length already a selector. -/
def makeFrame (cls : Byte) (sel : BitVec 3) (content : Byte) : Byte :=
  cls ||| (content &&& 0x07#8) ||| (sel.setWidth 8 <<< 3)

/-- messageClass (R93, R181). -/
def messageClass (f : Byte) : Byte := f &&& 0xC0#8

/-- commandId (R93, R182). -/
def commandId (f : Byte) : Byte := f &&& 0x07#8

/-- payloadLength (R92, R183), computed at 8 bits. -/
def payloadLength (f : Byte) : Byte := 1#8 <<< ((f >>> 3) &&& 7#8)

/-- `EV(k, n)`, the event byte (R87, R160). -/
def eventByte (k : BitVec 3) (n : Byte) : Byte := (k.setWidth 8 <<< 5) ||| (n &&& 0x1F#8)

/-- The kind of an event byte (R161). -/
def eventKind (e : Byte) : Byte := e >>> 5

/-- The info of an event byte (R162). -/
def eventInfo (e : Byte) : Byte := e &&& 0x1F#8

/-- The checksum: an XOR fold over the bytes from the seed (R185). -/
def checksum (seed : Byte) (bytes : List Byte) : Byte := bytes.foldl (· ^^^ ·) seed

/-- The length in milliseconds of a port operation's wait, if it is timed (R154, R323): only EQ_PUSH with a finite
timeout code is; SEND_DATA never times out (R262). -/
def portWaitMs (c : Config) (w : CommandWord) : Option Nat :=
  match decodeCommand w with
  | .eqPush _ b => if b = 0#8 then none else some (b.toNat * c.toUnitMs)
  | _ => none

/-- The place of a port among the ports (R4). -/
def portIndex : Port → Fin numPorts
  | .rxi => 0
  | .txi => 1
  | .dev => 2
  | .pin s => ⟨s.val + 3, by have := s.isLt; show s.val + 3 < 35; omega⟩

/-- The agent of a port exists: RXI, TXI and DEV always, `PIN_s` for `s` below `N_SRC` (R4). -/
def portExists (c : Config) : Port → Bool
  | .pin s => decide (s.val < c.nSrc)
  | _ => true

end Sys2Proof.Machine
end

