-- ==== Sys2Proof/Machine/Ops.lean ====
section
/-! DEFINITION. The named operations over the state: the byte spaces (R63), the circular-buffer functions (R120 to R125),
the response and the hold of a port operation (R82, R35), taking a fault (R310, R313), and the sequencer's primitives:
link reset, entry of each session state, waits, and the restart that follows a protocol error (R240 to R256, R315). The
restart has no return (R316), so there is no operation that returns from it. -/

namespace Sys2Proof.Machine

/-- What one meaning or one step answers. -/
abbrev Result := Host.Outcome State Fault Refusal

/-! ### Byte spaces -/

/-- The instance `i` of the circular buffer controller (R3). -/
def State.cbc (s : State) : Inst → Cbc
  | .eq => s.cbEq
  | .rx => s.cbRx
  | .tx => s.cbTx

/-- Replace the instance `i`. -/
def State.setCbc (s : State) (i : Inst) (c : Cbc) : State :=
  match i with
  | .eq => { s with cbEq := c }
  | .rx => { s with cbRx := c }
  | .tx => { s with cbTx := c }

/-- The bytes of a space that have been written since reset (R60). -/
def State.mem (s : State) : Space → Memory
  | .cbMem i => (s.cbc i).mem
  | .cmdBuf => s.cmdBuf
  | .sample => s.sample

/-- One byte of a space. A byte that nothing has written since reset reads as its draw, an arbitrary value that is the
same at every read until it is written (R32, R261, U8, U9; log entry 5). -/
def State.readByte (s : State) (sp : Space) (a : Nat) : Byte :=
  match (s.mem sp).read a with
  | some v => v
  | none => Config.resetDraw s.epoch sp a

/-- `MemWrite(SAMPLE, a, 1, v)` (R63). The callers check the bounds. -/
def State.sampleWrite (s : State) (a : Nat) (v : Byte) : State :=
  { s with sample := s.sample.write a v }

/-- `CMD_BUF[k] <- v` (R211). -/
def State.cmdBufWrite (s : State) (k : Nat) (v : Byte) : State :=
  { s with cmdBuf := s.cmdBuf.write k v }

/-- The `n` bytes of a space from address `a`, in increasing order. -/
def State.readBytes (s : State) (sp : Space) (a n : Nat) : List Byte :=
  (List.range n).map fun j => s.readByte sp (a + j)

/-! ### The circular buffer controller -/

/-- The slot mask `M = CAP - 1` at `CNT_W` bits (R120). -/
def slotMask (cap : Nat) : Count := BitVec.ofNat 8 cap - 1#8

/-- The slot of a count: `count & M` (R61, R120). -/
def slotOf (cap : Nat) (count : Count) : Nat := (count &&& slotMask cap).toNat

/-- Size: write count less read count, modulo `2^CNT_W` (R121). -/
def Cbc.size (c : Cbc) : Count := c.wr - c.rd

/-- Empty (R122). -/
def Cbc.isEmpty (c : Cbc) : Bool := c.wr == c.rd

/-- Full: the size has a bit above the slot mask (R123). -/
def Cbc.isFull (cap : Nat) (c : Cbc) : Bool := (c.size &&& ~~~slotMask cap) != 0#8

/-- `CB_size(i)` (R121). -/
def State.cbSize (s : State) (i : Inst) : Count := (s.cbc i).size

/-- `CB_empty(i)` (R122). -/
def State.cbEmpty (s : State) (i : Inst) : Bool := (s.cbc i).isEmpty

/-- `CB_full(i)` (R123). -/
def State.cbFull (s : State) (i : Inst) : Bool := (s.cbc i).isFull (s.cfg.cap i)

/-- `CB_push(i, v)` (R124). There is no state after it where its precondition is broken: the caller then raises
BAD_STATE (R313). -/
def State.cbPush (s : State) (i : Inst) (v : Byte) : Option State :=
  if s.cbFull i then none
  else
    let c := s.cbc i
    some (s.setCbc i { c with mem := c.mem.write (slotOf (s.cfg.cap i) c.wr) v, wr := c.wr + 1#8 })

/-- `CB_pop(i)` (R125), with the same care. The slot keeps its value. -/
def State.cbPop (s : State) (i : Inst) : Option (Byte × State) :=
  if s.cbEmpty i then none
  else
    let c := s.cbc i
    some (s.readByte (.cbMem i) (slotOf (s.cfg.cap i) c.rd), s.setCbc i { c with rd := c.rd + 1#8 })

/-- Push several bytes in order, in one transition (R262). -/
def State.cbPushAll (s : State) (i : Inst) : List Byte → Option State
  | [] => some s
  | v :: rest =>
    match s.cbPush i v with
    | none => none
    | some s' => s'.cbPushAll i rest

/-- `CB_DROP[i] <- min(CB_DROP[i] + 1, 0xFF)` (R24, R130, R152). -/
def State.countDrop (s : State) (i : Inst) : State :=
  let c := s.cbc i
  s.setCbc i { c with drop := satSucc c.drop }

/-! ### Ports -/

/-- `PEND[p]` (R35). -/
def State.pendOf (s : State) (p : Port) : Option Held := s.pend[portIndex p]

/-- Write `PEND[p]`. -/
def State.setPend (s : State) (p : Port) (h : Option Held) : State :=
  { s with pend := s.pend.set (portIndex p) h }

/-- The `EXPIRED` flag of the running port's wait (R36); false where it holds nothing. -/
def State.portExpired (s : State) : Bool :=
  match s.pendOf s.port with
  | some h => h.expired
  | none => false

/-- `respond(st, d)` (R8, R82): the operation of the running port completes. Its hold and its flag are discarded. -/
def State.respond (s : State) (st : Status) (d : Byte) : State :=
  { s.setPend s.port none with responses := s.responses ++ [⟨s.port, responseWord st d⟩] }

/-- The running port holds the operation `w` at its wait (R10, R35). A flag that TMR has set stays. -/
def State.hold (s : State) (w : CommandWord) : State :=
  s.setPend s.port (some ⟨w, s.portExpired⟩)

/-! ### Taking a fault -/

/-- `raise Fault(cause)` (R310): the sticky bit, the cause's status as the response, and nothing else. -/
def State.raiseFault (s : State) (c : Cause) : State :=
  { s with fault := s.fault ||| causeBit c }.respond (causeStatus c) 0x00#8

/-- Who made a call that broke a precondition (R313). -/
inductive Agent where
  | ses
  | dsp
  | port (w : CommandWord)
deriving DecidableEq, Repr

/-- BAD_STATE (R313): FAULT bit 2 is set and the agent has no further step. A port operation takes no step and gets no
response: its port holds it. -/
def State.raiseBadState (s : State) (who : Agent) : State :=
  let t := { s with fault := s.fault ||| badStateBit }
  match who with
  | .ses => { t with sessPhase := .stuck, sesExpired := false }
  | .dsp => { t with dspPhase := .stuck }
  | .port w => t.hold w

/-- Complete the running port's operation after a push, or raise BAD_STATE where the push had no room. -/
def State.pushResult (s : State) (w : CommandWord) (pushed : Option State) : State :=
  match pushed with
  | some t => t.respond .ok 0x00#8
  | none => s.raiseBadState (.port w)

/-! ### The sequencer's primitives -/

/-- `LINK.RX_EN`, bit 0 (R31). -/
def State.rxEn (s : State) : Bool := s.link.getLsbD 0

/-- `LINK.BAUD_SEL`, bit 1 (R31). -/
def State.baudSel (s : State) : Bool := s.link.getLsbD 1

/-- The link rate that `BAUD_SEL` selects (R245). The serialiser's use of it is outside the block. -/
def State.linkRate (s : State) : Nat := if s.baudSel then s.cfg.negBaud else Config.initBaud

/-- `LINK.RX_EN <- v` (R31). -/
def State.setRxEn (s : State) (v : Bool) : State :=
  { s with link := BitVec.ofBool s.baudSel ++ BitVec.ofBool v }

/-- `LINK.BAUD_SEL <- v` (R31). -/
def State.setBaudSel (s : State) (v : Bool) : State :=
  { s with link := BitVec.ofBool v ++ BitVec.ofBool s.rxEn }

/-- `link_reset()` (R241): receive disabled, RX and TX emptied by clearing their counters; `BAUD_SEL`, the drop counts
and the slots stay. -/
def State.linkReset (s : State) : State :=
  let t := s.setRxEn false
  { t with cbRx := { t.cbRx with rd := 0#8, wr := 0#8 }, cbTx := { t.cbTx with rd := 0#8, wr := 0#8 } }

/-- SES begins the wait at `ph` (R240): a new wait has no expiry yet (R36). -/
def State.sesWait (s : State) (ph : SesPhase) : State :=
  { s with sessPhase := ph, sesExpired := false }

/-- `state <- Start` and its procedure up to the first wait (R250). -/
def State.enterStart (s : State) : State :=
  ({ s with sessState := stStart }.linkReset).sesWait .sleepRestart

/-- `state <- Reset` and its procedure up to the first wait (R251). -/
def State.enterReset (s : State) : State :=
  ({ s with sessState := stReset }.linkReset).sesWait .sleepRestart

/-- `state <- Init` and its procedure up to the first wait (R252). -/
def State.enterInit (s : State) : State :=
  ((({ s with sessState := stInit }.setBaudSel false).setRxEn true)).sesWait (.txPut 0)

/-- `state <- WaitingForAck` and its procedure up to the first wait (R253). -/
def State.enterWaitingForAck (s : State) : State :=
  { s with sessState := stWaitingForAck }.sesWait .getAck

/-- `state <- SetSpeed` and its procedure up to the first wait (R254). -/
def State.enterSetSpeed (s : State) : State :=
  ({ s with sessState := stSetSpeed }.setBaudSel true).sesWait .sleepSpeed

/-- `state <- WaitingForCommand` and its procedure up to the first wait (R255). -/
def State.enterWaitingForCommand (s : State) : State :=
  { s with sessState := stWaitingForCommand }.sesWait .getFrame

/-- SES at the entry of its current state runs that state's procedure up to the first wait (R240, R342). SESS_STATE 6 or
7 is BAD_STATE (R256, R313). -/
def State.enterCurrent (s : State) : State :=
  match s.sessState.toNat with
  | 0 => s.enterStart
  | 1 => s.enterReset
  | 2 => s.enterInit
  | 3 => s.enterWaitingForAck
  | 4 => s.enterSetSpeed
  | 5 => s.enterWaitingForCommand
  | _ => s.raiseBadState .ses

/-- `SES_RESULT <- kind` (R30). -/
def State.setResult (s : State) (k : ErrKind) : State := { s with sesResult := errCode k }

/-- The end of a WaitingForCommand exchange with result `k` (R255): the result is written; on Success the state loops,
on any failure kind the Stop push begins, after which the session restarts from Reset (R315). -/
def State.finishFrame (s : State) (k : ErrKind) : State :=
  match k with
  | .success => (s.setResult .success).enterWaitingForCommand
  | k => (s.setResult k).sesWait .pushStop

/-- The end of a WaitingForAck exchange that did not receive ACK (R253): the result is written and the session restarts
from Start, with no Stop event (R315). -/
def State.failAck (s : State) (k : ErrKind) : State := (s.setResult k).enterStart

/-- How a `get_byte` stands (R242): a byte came, with the state after the pop; the wait timed out; SES still waits; or
the pop's precondition was broken. -/
inductive Got where
  | byte (v : Byte) (s : State)
  | timeout
  | held
  | broken
deriving DecidableEq, Repr

/-- `get_byte(T)` at its wait point (R242). While RX holds a byte only the condition is enabled (R157). -/
def State.getByte (s : State) : Got :=
  if s.cbEmpty .rx then (if s.sesExpired then .timeout else .held)
  else
    match s.cbPop .rx with
    | some (v, t) => .byte v t
    | none => .broken

/-- How a push by SES stands: done, with the state after it; timed out; still waiting; or its precondition broken. -/
inductive Pushed where
  | done (s : State)
  | timeout
  | held
  | broken
deriving DecidableEq, Repr

/-- `session_push(e)` at its wait point (R246, R155 to R157). -/
def State.sessionPush (s : State) (e : Byte) : Pushed :=
  if s.cbFull .eq then (if s.sesExpired then .timeout else .held)
  else
    match s.cbPush .eq e with
    | some t => .done t
    | none => .broken

/-- `tx_put(b)` at its wait point (R244): it never times out. -/
def State.txPut (s : State) (b : Byte) : Pushed :=
  if s.cbFull .tx then .held
  else
    match s.cbPush .tx b with
    | some t => .done t
    | none => .broken

/-- The write forward that SES presents to DEV, if any: the payload `CMD_BUF[0..CMD_LEN-1]` (R218, R222). -/
def State.writeForward (s : State) : Option (List Byte) :=
  match s.sessPhase with
  | .command _ .forward => some (s.readBytes .cmdBuf 0 s.cmdLen.toNat)
  | _ => none

/-- The device request that DSP presents to DEV, if any: the event byte itself (R291). -/
def State.devRequest (s : State) : Option Byte :=
  match s.dspPhase with
  | .waitAck => some s.dspEv
  | _ => none

/-- `dev_request(kind, info)` (R291): DSP presents the request, it is recorded, and DSP waits for DEV. -/
def State.presentRequest (s : State) (k : BitVec 3) (n : BitVec 5) : State :=
  { s with dspEv := mkEvent k n, devReqs := s.devReqs ++ [(k, n)], dspPhase := .waitAck }

/-! ### Time -/

/-- The length in milliseconds of the wait SES stands at, if it is timed (R323). -/
def State.sesWaitMs (s : State) : Option Nat :=
  match s.sessPhase with
  | .sleepRestart => some (if s.sessState = stStart then Config.tStartMs else s.cfg.tResetMs)
  | .getAck => some Config.tAckMs
  | .sleepSpeed => some Config.tSpeedMs
  | .pushStart => some s.cfg.tPushMs
  | .getFrame => some Config.tHeartbeatMs
  | .command _ (.payload _) => some Config.tHeartbeatMs
  | .command _ .checksum => some Config.tHeartbeatMs
  | .command _ (.push _) => some s.cfg.tPushMs
  | .pushStop => some s.cfg.tPushMs
  | .entry => none
  | .txPut _ => none
  | .command _ .forward => none
  | .stuck => none

/-- TMR sets the `EXPIRED` flag of a pending finite wait (R12, R157; log entry 8). A wait that is not pending or has no
finite timeout is never expired. -/
def State.expire (s : State) : Wait → State
  | .ses => if s.sesWaitMs.isSome then { s with sesExpired := true } else s
  | .port p =>
    match s.pendOf p with
    | some h => if (portWaitMs s.cfg h.word).isSome then s.setPend p (some { h with expired := true }) else s
    | none => s

/-! ### The reset input -/

/-- The reset input is driven (R340). While it is asserted no agent takes a step; when it is released every piece of
state takes its reset value, the unspecified bytes are drawn anew, and the histories stay (log entry 4). -/
def State.driveReset (s : State) (asserted : Bool) : State :=
  if asserted then { s with rstAsserted := true }
  else if s.rstAsserted then
    { State.resetWith s.cfg with
      wireOut := s.wireOut
      devReqs := s.devReqs
      writeFwds := s.writeFwds
      responses := s.responses
      port := s.port
      epoch := s.epoch + 1
      inputs := s.inputs
      tick := s.tick }
  else s

end Sys2Proof.Machine
end

