-- ==== Sys2Proof/Machine/Checksum.lean ====
section
/-! DEFINITION. The checksum generator's operations: 43_frame_codec.md R190 to R194. Every port shares `CK_ACC` (R350). -/

namespace Sys2Proof.Machine

/-- Load `CK_ACC`; the response carries the new value (R190 to R192). -/
def loadCk (v : Byte) (s : State) : Result := .next ({ s with ckAcc := v }.respond .ok v)

/-- CK_INIT (R190): the default seed. -/
def execCkInit (s : State) : Result := loadCk 0xFF#8 s

/-- CK_SEED (R191): an explicit seed. -/
def execCkSeed (a : Byte) (s : State) : Result := loadCk a s

/-- CK_FOLD (R192): fold one byte in. -/
def execCkFold (a : Byte) (s : State) : Result := loadCk (s.ckAcc ^^^ a) s

/-- CK_READ (R193). -/
def execCkRead (s : State) : Result := .next (s.respond .ok s.ckAcc)

/-- CK_CHECK (R194): compare with a received checksum byte; `CK_ACC` is unchanged. -/
def execCkCheck (a : Byte) (s : State) : Result := .next (s.respond .ok (boolByte (s.ckAcc == a)))

end Sys2Proof.Machine
end

