-- ==== Sys2Proof/Machine/CircularBuffer.lean ====
section
/-! DEFINITION. The port operations of the circular buffer controller: 41_circular_buffer.md R130 to R135. -/

namespace Sys2Proof.Machine

/-- CB_PUSH.RX (R130): discarded while receive is disabled (R243), dropped and counted when RX is full, else pushed. -/
def execCbPushRx (a : Byte) (s : State) : Result :=
  if s.rxEn = false then .next (s.respond .disabled 0x00#8)
  else if s.cbFull .rx then .next ((s.countDrop .rx).respond .full 0x00#8)
  else .next (s.pushResult (mkCommand 0x11#8 a 0#8) (s.cbPush .rx a))

/-- CB_POP.TX (R131): the byte popped is the response's data and the next byte of the wire output (R38). -/
def execCbPopTx (s : State) : Result :=
  if s.cbEmpty .tx then .next (s.respond .empty 0x00#8)
  else
    match s.cbPop .tx with
    | some (v, t) => .next ({ t with wireOut := t.wireOut ++ [v] }.respond .ok v)
    | none => .next (s.raiseBadState (.port (mkCommand 0x16#8 0#8 0#8)))

/-- CB_SIZE of an instance (R132). -/
def sizeOp (i : Inst) (s : State) : Result := .next (s.respond .ok (s.cbSize i))

/-- CB_EMPTY of an instance (R133). -/
def emptyOp (i : Inst) (s : State) : Result := .next (s.respond .ok (boolByte (s.cbEmpty i)))

/-- CB_FULL of an instance (R134). -/
def fullOp (i : Inst) (s : State) : Result := .next (s.respond .ok (boolByte (s.cbFull i)))

/-- CB_DROPS of an instance (R135). -/
def dropsOp (i : Inst) (s : State) : Result := .next (s.respond .ok (s.cbc i).drop)

/-- CB_SIZE.EQ (R132). -/
def execCbSizeEq (s : State) : Result := sizeOp .eq s

/-- CB_SIZE.RX (R132). -/
def execCbSizeRx (s : State) : Result := sizeOp .rx s

/-- CB_SIZE.TX (R132). -/
def execCbSizeTx (s : State) : Result := sizeOp .tx s

/-- CB_EMPTY.EQ (R133). -/
def execCbEmptyEq (s : State) : Result := emptyOp .eq s

/-- CB_EMPTY.RX (R133). -/
def execCbEmptyRx (s : State) : Result := emptyOp .rx s

/-- CB_EMPTY.TX (R133). -/
def execCbEmptyTx (s : State) : Result := emptyOp .tx s

/-- CB_FULL.EQ (R134). -/
def execCbFullEq (s : State) : Result := fullOp .eq s

/-- CB_FULL.RX (R134). -/
def execCbFullRx (s : State) : Result := fullOp .rx s

/-- CB_FULL.TX (R134). -/
def execCbFullTx (s : State) : Result := fullOp .tx s

/-- CB_DROPS.EQ (R135). -/
def execCbDropsEq (s : State) : Result := dropsOp .eq s

/-- CB_DROPS.RX (R135). -/
def execCbDropsRx (s : State) : Result := dropsOp .rx s

/-- CB_DROPS.TX (R135). -/
def execCbDropsTx (s : State) : Result := dropsOp .tx s

end Sys2Proof.Machine
end

