-- ==== Sys2Proof/Machine/EventCodec.lean ====
section
/-! DEFINITION. The event codec's operations: 42_event_queue.md R160 to R162. -/

namespace Sys2Proof.Machine

/-- EV_MAKE with kind `k` (R160): the info is masked to 5 bits. -/
def makeEventOp (k : BitVec 3) (a : Byte) (s : State) : Result := .next (s.respond .ok (eventByte k a))

/-- EV_MAKE.Data (R160, R103). -/
def execEvMakeData (a : Byte) (s : State) : Result := makeEventOp 0#3 a s

/-- EV_MAKE.Scale (R160, R103). -/
def execEvMakeScale (a : Byte) (s : State) : Result := makeEventOp 1#3 a s

/-- EV_MAKE.Mode (R160, R103). -/
def execEvMakeMode (a : Byte) (s : State) : Result := makeEventOp 2#3 a s

/-- EV_MAKE.Reset (R160, R103). -/
def execEvMakeReset (a : Byte) (s : State) : Result := makeEventOp 3#3 a s

/-- EV_MAKE.Start (R160, R103). -/
def execEvMakeStart (a : Byte) (s : State) : Result := makeEventOp 4#3 a s

/-- EV_MAKE.Stop (R160, R103). -/
def execEvMakeStop (a : Byte) (s : State) : Result := makeEventOp 5#3 a s

/-- EV_MAKE.Request (R160, R103). -/
def execEvMakeRequest (a : Byte) (s : State) : Result := makeEventOp 6#3 a s

/-- EV_MAKE.Eeprom (R160, R103). -/
def execEvMakeEeprom (a : Byte) (s : State) : Result := makeEventOp 7#3 a s

/-- EV_KIND (R161). -/
def execEvKind (a : Byte) (s : State) : Result := .next (s.respond .ok (eventKind a))

/-- EV_INFO (R162). -/
def execEvInfo (a : Byte) (s : State) : Result := .next (s.respond .ok (eventInfo a))

end Sys2Proof.Machine
end

