-- ==== Sys2Proof/Machine/EventQueue.lean ====
section
/-! DEFINITION. The pushes of the event queue: 42_event_queue.md R152 to R157. -/

namespace Sys2Proof.Machine

/-- EQ_TRY_PUSH (R152): non-blocking; on a full queue the new event is dropped and counted. -/
def execEqTryPush (a : Byte) (s : State) : Result :=
  if s.cbFull .eq then .next ((s.countDrop .eq).respond .full 0x00#8)
  else .next (s.pushResult (mkCommand 0x60#8 a 0#8) (s.cbPush .eq a))

/-- EQ_PUSH (R153): the issue, and each later transition of the held operation. It completes where the queue has room;
on a full queue it times out if its finite wait has expired (R154, R157), and else holds its port. -/
def execEqPush (a b : Byte) (s : State) : Result :=
  if s.cbFull .eq = false then .next (s.pushResult (mkCommand 0x61#8 a b) (s.cbPush .eq a))
  else if b ≠ 0#8 ∧ s.portExpired = true then .next (s.respond .timeout 0x00#8)
  else .next (s.hold (mkCommand 0x61#8 a b))

end Sys2Proof.Machine
end

