-- ==== Sys2Proof/Machine/Events.lean ====
section
/-! DEFINITION. The events, DSP's instructions: 46_dispatcher.md R292 to R299. A step of DSP pops the event and runs its
meaning in the same transition (R290). -/

namespace Sys2Proof.Machine

/-- A kind that has a device operation: `DSP_EV` takes the event and the device request begins (R290, R291). -/
def requestOp (k : BitVec 3) (n : BitVec 5) (s : State) : Result := .next (s.presentRequest k n)

/-- EVENT.Data (R292): the sample-ready handler. -/
def execEventData (n : BitVec 5) (s : State) : Result := requestOp 0#3 n s

/-- EVENT.Scale (R293): set scale. -/
def execEventScale (n : BitVec 5) (s : State) : Result := requestOp 1#3 n s

/-- EVENT.Mode (R294): set mode. -/
def execEventMode (n : BitVec 5) (s : State) : Result := requestOp 2#3 n s

/-- EVENT.Reset (R295): the device's reset. -/
def execEventReset (n : BitVec 5) (s : State) : Result := requestOp 3#3 n s

/-- EVENT.Start (R296): the device's start. -/
def execEventStart (n : BitVec 5) (s : State) : Result := requestOp 4#3 n s

/-- EVENT.Stop (R297): the device's stop. -/
def execEventStop (n : BitVec 5) (s : State) : Result := requestOp 5#3 n s

/-- EVENT.Request (R298): the event is consumed, `DSP_EV` holds it, and DSP is back at its pop. -/
def execEventRequest (n : BitVec 5) (s : State) : Result :=
  .next { s with dspEv := mkEvent 6#3 n, dspPhase := .waitEvent }

/-- EVENT.Eeprom (R299): the EEPROM flush. -/
def execEventEeprom (n : BitVec 5) (s : State) : Result := requestOp 7#3 n s

end Sys2Proof.Machine
end

