-- ==== Sys2Proof/Machine/FrameCodec.lean ====
section
/-! DEFINITION. The frame codec's operations: 43_frame_codec.md R180 to R183. -/

namespace Sys2Proof.Machine

/-- FR_MAKE with class code `c` (R180): a length outside 1, 2, 4, 8, 16, 32 raises ILLEGAL_OPERAND (R312); the content
is masked. -/
def makeOp (c : BitVec 2) (a b : Byte) (s : State) : Result :=
  match log2Length a with
  | none => .next (s.raiseFault .illegalOperand)
  | some sel => .next (s.respond .ok (makeFrame (classValue c) sel b))

/-- FR_MAKE.SYS (R180). -/
def execFrMakeSys (a b : Byte) (s : State) : Result := makeOp 0#2 a b s

/-- FR_MAKE.CMD (R180). -/
def execFrMakeCmd (a b : Byte) (s : State) : Result := makeOp 1#2 a b s

/-- FR_MAKE.INFO (R180). -/
def execFrMakeInfo (a b : Byte) (s : State) : Result := makeOp 2#2 a b s

/-- FR_MAKE.DATA (R180). -/
def execFrMakeData (a b : Byte) (s : State) : Result := makeOp 3#2 a b s

/-- FR_CLASS (R181). -/
def execFrClass (a : Byte) (s : State) : Result := .next (s.respond .ok (messageClass a))

/-- FR_CONTENT (R182). -/
def execFrContent (a : Byte) (s : State) : Result := .next (s.respond .ok (commandId a))

/-- FR_LENGTH (R183): the reserved selectors decode to 64 and 128 with no fault. -/
def execFrLength (a : Byte) (s : State) : Result := .next (s.respond .ok (payloadLength a))

end Sys2Proof.Machine
end

