-- ==== Sys2Proof/Machine/Illegal.lean ====
section
/-! DEFINITION. The illegal opcodes: each takes the fault ILLEGAL_OPCODE (30_encoding.md R85; 41_circular_buffer.md R136;
42_event_queue.md R159; 60_exceptions.md R310, R311). -/

namespace Sys2Proof.Machine

/-- An illegal opcode: `raise Fault(ILLEGAL_OPCODE)`, response `0xFF00` (R311). -/
def illegalOp (s : State) : Result := .next (s.raiseFault .illegalOpcode)

/-- `0x10`, raw push of EQ (R136). -/
def execIllegal10 (s : State) : Result := illegalOp s

/-- `0x12`, raw push of TX (R136). -/
def execIllegal12 (s : State) : Result := illegalOp s

/-- `0x13`, raw push of instance 3 (R136). -/
def execIllegal13 (s : State) : Result := illegalOp s

/-- `0x14`, raw pop of EQ (R136). -/
def execIllegal14 (s : State) : Result := illegalOp s

/-- `0x15`, raw pop of RX (R136). -/
def execIllegal15 (s : State) : Result := illegalOp s

/-- `0x17`, raw pop of instance 3 (R136). -/
def execIllegal17 (s : State) : Result := illegalOp s

/-- `0x1B`, size of instance 3 (R136). -/
def execIllegal1B (s : State) : Result := illegalOp s

/-- `0x1F`, empty of instance 3 (R136). -/
def execIllegal1F (s : State) : Result := illegalOp s

/-- `0x23`, full of instance 3 (R136). -/
def execIllegal23 (s : State) : Result := illegalOp s

/-- `0x27`, drops of instance 3 (R136). -/
def execIllegal27 (s : State) : Result := illegalOp s

/-- `0x62`, non-blocking pop of EQ by a port (R159). -/
def execIllegal62 (s : State) : Result := illegalOp s

/-- `0x63`, blocking pop of EQ by a port (R159). -/
def execIllegal63 (s : State) : Result := illegalOp s

/-- Every other unlisted opcode (R311). -/
def execIllegalOpcode (_opc : Byte) (s : State) : Result := illegalOp s

end Sys2Proof.Machine
end

