-- ==== Sys2Proof/Machine/SampleBuffer.lean ====
section
/-! DEFINITION. The sample buffer's operations and data transmission: 45_session.md R260 to R262. -/

namespace Sys2Proof.Machine

/-- SB_WRITE (R260). -/
def execSbWrite (a b : Byte) (s : State) : Result :=
  if s.cfg.sampleSize ≤ a.toNat then .next (s.raiseFault .illegalOperand)
  else .next ((s.sampleWrite a.toNat b).respond .ok 0x00#8)

/-- SB_READ (R261). -/
def execSbRead (a : Byte) (s : State) : Result :=
  if s.cfg.sampleSize ≤ a.toNat then .next (s.raiseFault .illegalOperand)
  else .next (s.respond .ok (s.readByte .sample a.toNat))

/-- TX has room for a message with an `n`-byte payload (R262). -/
def State.txRoom (s : State) (n : Nat) : Bool :=
  decide (n + 2 ≤ s.cfg.cap .tx - (s.cbSize .tx).toNat)

/-- What SEND_DATA writes to SAMPLE when it completes: the frame byte at `a`, and after the `n` payload bytes the
checksum of the frame byte and the payload (R262, R351). -/
def State.frameSample (s : State) (m : BitVec 3) (sel : BitVec 3) (a n : Nat) : State :=
  let f := makeFrame (classValue 3#2) sel (m.setWidth 8)
  let t := s.sampleWrite a f
  t.sampleWrite (a + n + 1) (checksum 0xFF#8 (f :: t.readBytes .sample (a + 1) n))

/-- SEND_DATA with mode `m` (R262): the issue, and each later transition of the held operation `w`. The operands are
checked before the state (R321). -/
def sendOp (m : BitVec 3) (w : CommandWord) (a b : Byte) (s : State) : Result :=
  match log2Length b with
  | none => .next (s.raiseFault .illegalOperand)
  | some sel =>
    if s.cfg.sampleSize < a.toNat + b.toNat + 2 then .next (s.raiseFault .illegalOperand)
    else if s.sessState ≠ stWaitingForCommand then .next (s.respond .refused 0x00#8)
    else if s.txRoom b.toNat then
      let t := s.frameSample m sel a.toNat b.toNat
      match t.cbPushAll .tx (t.readBytes .sample a.toNat (b.toNat + 2)) with
      | some u => .next (u.respond .ok 0x00#8)
      | none => .next (s.raiseBadState (.port w))
    else .next (s.hold w)

/-- SEND_DATA.0 (R262). -/
def execSendData0 (a b : Byte) (s : State) : Result := sendOp 0#3 (mkCommand 0x70#8 a b) a b s

/-- SEND_DATA.1 (R262). -/
def execSendData1 (a b : Byte) (s : State) : Result := sendOp 1#3 (mkCommand 0x71#8 a b) a b s

/-- SEND_DATA.2 (R262). -/
def execSendData2 (a b : Byte) (s : State) : Result := sendOp 2#3 (mkCommand 0x72#8 a b) a b s

/-- SEND_DATA.3 (R262). -/
def execSendData3 (a b : Byte) (s : State) : Result := sendOp 3#3 (mkCommand 0x73#8 a b) a b s

/-- SEND_DATA.4 (R262). -/
def execSendData4 (a b : Byte) (s : State) : Result := sendOp 4#3 (mkCommand 0x74#8 a b) a b s

/-- SEND_DATA.5 (R262). -/
def execSendData5 (a b : Byte) (s : State) : Result := sendOp 5#3 (mkCommand 0x75#8 a b) a b s

/-- SEND_DATA.6 (R262). -/
def execSendData6 (a b : Byte) (s : State) : Result := sendOp 6#3 (mkCommand 0x76#8 a b) a b s

/-- SEND_DATA.7 (R262). -/
def execSendData7 (a b : Byte) (s : State) : Result := sendOp 7#3 (mkCommand 0x77#8 a b) a b s

end Sys2Proof.Machine
end

