-- ==== Sys2Proof/Machine/Status.lean ====
section
/-! DEFINITION. The status operations: 45_session.md R264 to R267. None of them changes what it reads. -/

namespace Sys2Proof.Machine

/-- SES_STATE (R264). -/
def execSesState (s : State) : Result := .next (s.respond .ok (s.sessState.setWidth 8))

/-- SES_RESULT (R265). -/
def execSesResult (s : State) : Result := .next (s.respond .ok (s.sesResult.setWidth 8))

/-- LINK_READ (R266). -/
def execLinkRead (s : State) : Result := .next (s.respond .ok (s.link.setWidth 8))

/-- FAULT_READ (R267). -/
def execFaultRead (s : State) : Result := .next (s.respond .ok s.fault)

end Sys2Proof.Machine
end

