-- ==== Sys2Proof/Machine/WireFrames.lean ====
section
/-! DEFINITION. The wire frames, SES's instructions: 45_session.md R253; 44_command_reader.md R210 to R222. A step of SES
pops the frame byte and runs the frame's meaning in the same transition; a CMD frame is run again at each of its later
wait points, which `SESS_PHASE` names (R240, log entry 12). -/

namespace Sys2Proof.Machine

/-- WAIT_ACK.ACK (R253): Success, and on to SetSpeed. -/
def execWaitAckAck (s : State) : Result := .next (s.setResult .success).enterSetSpeed

/-- SYS.NACK (R214): a no-op Success. -/
def execSysNack (s : State) : Result := .next (s.finishFrame .success)

/-- SYS.OTHER (R214): NotExpectedCommand. -/
def execSysOther (_lll _xxx : BitVec 3) (s : State) : Result := .next (s.finishFrame .notExpectedCommand)

/-- CMD.LEN_RESERVED (R215): FormatError, and nothing is read. -/
def execCmdLenReserved (_lll _xxx : BitVec 3) (s : State) : Result := .next (s.finishFrame .formatError)

/-- INFO (R220): NotExpectedCommand, and nothing is read. -/
def execInfoFrame (_lll _xxx : BitVec 3) (s : State) : Result := .next (s.finishFrame .notExpectedCommand)

/-- DATA (R221): a no-op Success, and nothing is read. -/
def execDataFrame (_lll _xxx : BitVec 3) (s : State) : Result := .next (s.finishFrame .success)

/-- The start of `read_command(f, n)` (R210): the length, the seed `0xFF ^ f`, and the wait for payload byte 0. -/
def State.beginRead (s : State) (f : Byte) : State :=
  { s with cmdLen := (payloadLength f).setWidth 6, rdCk := 0xFF#8 ^^^ f }.sesWait (.command f (.payload 0))

/-- The wait for payload byte `k` (R210, R211). -/
def State.readPayload (s : State) (f : Byte) (k : Nat) : State :=
  match s.getByte with
  | .byte r t =>
    let u := { t.cmdBufWrite k r with rdCk := t.rdCk ^^^ r }
    if k + 1 < u.cmdLen.toNat then u.sesWait (.command f (.payload (k + 1)))
    else u.sesWait (.command f .checksum)
  | .timeout => s.finishFrame .timeout
  | .held => s
  | .broken => s.raiseBadState .ses

/-- The wait for the checksum byte (R210, R212): on a match the command's own case begins, at the wait point that the
command's `next` gives, or with its result. -/
def State.readChecksum (s : State) (next : State → State) : State :=
  match s.getByte with
  | .byte r t => if r = t.rdCk then next t else t.finishFrame .crcError
  | .timeout => s.finishFrame .timeout
  | .held => s
  | .broken => s.raiseBadState .ses

/-- The wait for room for the command's event (R217, R218, R246). -/
def State.pushCommandEvent (s : State) (e : Byte) : State :=
  match s.sessionPush e with
  | .done t => t.finishFrame .success
  | .timeout => s.finishFrame .timeout
  | .held => s
  | .broken => s.raiseBadState .ses

/-- One transition of the procedure of a CMD frame with at most 32 payload bytes (R216): at the frame byte it begins the
read, at each wait point inside the procedure it completes that wait if it can. The write forward ends only by DEV's
acknowledgement (R222). -/
def commandStep (f : Byte) (next : State → State) (s : State) : State :=
  match s.sessPhase with
  | .command _ (.payload k) => s.readPayload f k
  | .command _ .checksum => s.readChecksum next
  | .command _ (.push e) => s.pushCommandEvent e
  | .command _ .forward => s
  | _ => s.beginRead f

/-- SELECT after a good read (R217): the push of `EV(Mode, CMD_BUF[0] & 0x1F)` begins; it completes in a later
transition (R240, log entry 13). -/
def selectCase (f : Byte) (s : State) : State :=
  s.sesWait (.command f (.push (eventByte 2#3 (s.readByte .cmdBuf 0))))

/-- WRITE after a good read (R218): the reset sentinel begins the push of `EV(Reset, 0)`, any other payload is
forwarded to DEV and recorded (R222). -/
def writeCase (f : Byte) (s : State) : State :=
  if s.readByte .cmdBuf 0 = s.cfg.resetSentinel then s.sesWait (.command f (.push (eventByte 3#3 0#8)))
  else
    { s with writeFwds := s.writeFwds ++ [s.readBytes .cmdBuf 0 s.cmdLen.toNat] }.sesWait (.command f .forward)

/-- CMD.SELECT (R215 to R217). -/
def execCmdSelect (lll : BitVec 3) (s : State) : Result :=
  let f := mkFrame 1#2 lll 3#3
  .next (commandStep f (selectCase f) s)

/-- CMD.WRITE (R215, R216, R218). -/
def execCmdWrite (lll : BitVec 3) (s : State) : Result :=
  let f := mkFrame 1#2 lll Config.writeId
  .next (commandStep f (writeCase f) s)

/-- CMD.OTHER (R215, R216, R219): read and checked, then NotExpectedCommand. -/
def execCmdOther (lll xxx : BitVec 3) (s : State) : Result :=
  .next (commandStep (mkFrame 1#2 lll xxx) (fun t => t.finishFrame .notExpectedCommand) s)

end Sys2Proof.Machine
end

