-- ==== Sys2Proof/Machine/Dispatch.lean ====
section
/-! DEFINITION. The dispatch of instructions to their meanings: one arm for each constructor of Instr. -/

namespace Sys2Proof.Machine

def exec (i : Instr) (s : State) : Host.Outcome State Fault Refusal :=
  match i with
  -- 41_circular_buffer.md.
  | .cbPushRx a => Sys2Proof.Machine.execCbPushRx a s
  | .cbPopTx => Sys2Proof.Machine.execCbPopTx s
  | .cbSizeEq => Sys2Proof.Machine.execCbSizeEq s
  | .cbSizeRx => Sys2Proof.Machine.execCbSizeRx s
  | .cbSizeTx => Sys2Proof.Machine.execCbSizeTx s
  | .cbEmptyEq => Sys2Proof.Machine.execCbEmptyEq s
  | .cbEmptyRx => Sys2Proof.Machine.execCbEmptyRx s
  | .cbEmptyTx => Sys2Proof.Machine.execCbEmptyTx s
  | .cbFullEq => Sys2Proof.Machine.execCbFullEq s
  | .cbFullRx => Sys2Proof.Machine.execCbFullRx s
  | .cbFullTx => Sys2Proof.Machine.execCbFullTx s
  | .cbDropsEq => Sys2Proof.Machine.execCbDropsEq s
  | .cbDropsRx => Sys2Proof.Machine.execCbDropsRx s
  | .cbDropsTx => Sys2Proof.Machine.execCbDropsTx s
  -- 43_frame_codec.md, checksum generator.
  | .ckInit => Sys2Proof.Machine.execCkInit s
  | .ckSeed a => Sys2Proof.Machine.execCkSeed a s
  | .ckFold a => Sys2Proof.Machine.execCkFold a s
  | .ckRead => Sys2Proof.Machine.execCkRead s
  | .ckCheck a => Sys2Proof.Machine.execCkCheck a s
  -- 43_frame_codec.md, frame codec.
  | .frMakeSys a b => Sys2Proof.Machine.execFrMakeSys a b s
  | .frMakeCmd a b => Sys2Proof.Machine.execFrMakeCmd a b s
  | .frMakeInfo a b => Sys2Proof.Machine.execFrMakeInfo a b s
  | .frMakeData a b => Sys2Proof.Machine.execFrMakeData a b s
  | .frClass a => Sys2Proof.Machine.execFrClass a s
  | .frContent a => Sys2Proof.Machine.execFrContent a s
  | .frLength a => Sys2Proof.Machine.execFrLength a s
  -- 42_event_queue.md, event codec.
  | .evMakeData a => Sys2Proof.Machine.execEvMakeData a s
  | .evMakeScale a => Sys2Proof.Machine.execEvMakeScale a s
  | .evMakeMode a => Sys2Proof.Machine.execEvMakeMode a s
  | .evMakeReset a => Sys2Proof.Machine.execEvMakeReset a s
  | .evMakeStart a => Sys2Proof.Machine.execEvMakeStart a s
  | .evMakeStop a => Sys2Proof.Machine.execEvMakeStop a s
  | .evMakeRequest a => Sys2Proof.Machine.execEvMakeRequest a s
  | .evMakeEeprom a => Sys2Proof.Machine.execEvMakeEeprom a s
  | .evKind a => Sys2Proof.Machine.execEvKind a s
  | .evInfo a => Sys2Proof.Machine.execEvInfo a s
  -- 42_event_queue.md, pushes.
  | .eqTryPush a => Sys2Proof.Machine.execEqTryPush a s
  | .eqPush a b => Sys2Proof.Machine.execEqPush a b s
  -- 45_session.md.
  | .sendData0 a b => Sys2Proof.Machine.execSendData0 a b s
  | .sendData1 a b => Sys2Proof.Machine.execSendData1 a b s
  | .sendData2 a b => Sys2Proof.Machine.execSendData2 a b s
  | .sendData3 a b => Sys2Proof.Machine.execSendData3 a b s
  | .sendData4 a b => Sys2Proof.Machine.execSendData4 a b s
  | .sendData5 a b => Sys2Proof.Machine.execSendData5 a b s
  | .sendData6 a b => Sys2Proof.Machine.execSendData6 a b s
  | .sendData7 a b => Sys2Proof.Machine.execSendData7 a b s
  | .sbWrite a b => Sys2Proof.Machine.execSbWrite a b s
  | .sbRead a => Sys2Proof.Machine.execSbRead a s
  | .sesState => Sys2Proof.Machine.execSesState s
  | .sesResult => Sys2Proof.Machine.execSesResult s
  | .linkRead => Sys2Proof.Machine.execLinkRead s
  | .faultRead => Sys2Proof.Machine.execFaultRead s
  -- Illegal opcodes.
  | .illegal10 => Sys2Proof.Machine.execIllegal10 s
  | .illegal12 => Sys2Proof.Machine.execIllegal12 s
  | .illegal13 => Sys2Proof.Machine.execIllegal13 s
  | .illegal14 => Sys2Proof.Machine.execIllegal14 s
  | .illegal15 => Sys2Proof.Machine.execIllegal15 s
  | .illegal17 => Sys2Proof.Machine.execIllegal17 s
  | .illegal1B => Sys2Proof.Machine.execIllegal1B s
  | .illegal1F => Sys2Proof.Machine.execIllegal1F s
  | .illegal23 => Sys2Proof.Machine.execIllegal23 s
  | .illegal27 => Sys2Proof.Machine.execIllegal27 s
  | .illegal62 => Sys2Proof.Machine.execIllegal62 s
  | .illegal63 => Sys2Proof.Machine.execIllegal63 s
  | .illegalOpcode opc => Sys2Proof.Machine.execIllegalOpcode opc s
  -- Wire frames.
  | .waitAckAck => Sys2Proof.Machine.execWaitAckAck s
  | .sysNack => Sys2Proof.Machine.execSysNack s
  | .sysOther lll xxx => Sys2Proof.Machine.execSysOther lll xxx s
  | .cmdLenReserved lll xxx => Sys2Proof.Machine.execCmdLenReserved lll xxx s
  | .cmdSelect lll => Sys2Proof.Machine.execCmdSelect lll s
  | .cmdWrite lll => Sys2Proof.Machine.execCmdWrite lll s
  | .cmdOther lll xxx => Sys2Proof.Machine.execCmdOther lll xxx s
  | .infoFrame lll xxx => Sys2Proof.Machine.execInfoFrame lll xxx s
  | .dataFrame lll xxx => Sys2Proof.Machine.execDataFrame lll xxx s
  -- Events.
  | .eventData n => Sys2Proof.Machine.execEventData n s
  | .eventScale n => Sys2Proof.Machine.execEventScale n s
  | .eventMode n => Sys2Proof.Machine.execEventMode n s
  | .eventReset n => Sys2Proof.Machine.execEventReset n s
  | .eventStart n => Sys2Proof.Machine.execEventStart n s
  | .eventStop n => Sys2Proof.Machine.execEventStop n s
  | .eventRequest n => Sys2Proof.Machine.execEventRequest n s
  | .eventEeprom n => Sys2Proof.Machine.execEventEeprom n s

end Sys2Proof.Machine
end

