-- ==== Sys2Proof/Machine/Agents.lean ====
section
/-! DEFINITION. The transitions of the agents (00_scope.md R4, R9, R10): of the ports (R35, R155), of SES (R240 to R256), of
DSP (R290), of TMR (R157), and of DEV's acknowledgements (R222, R291). Each takes the agent from one wait point to the
next; where the transition is not enabled nothing happens. -/

namespace Sys2Proof.Machine

/-! ### Ports -/

/-- A port that exists and is idle issues a command word (R4, R35): the decoded operation runs on it. -/
def issue (p : Port) (w : CommandWord) (s : State) : Result :=
  if portExists s.cfg p = true ∧ s.pendOf p = none then exec (decodeCommand w) { s with port := p }
  else .next s

/-- A held operation of a port takes its transition (R155, R157): the operation runs again, and completes, times out or
goes on holding. -/
def resume (p : Port) (s : State) : Result :=
  match s.pendOf p with
  | some h => exec (decodeCommand h.word) { s with port := p }
  | none => .next s

/-! ### SES -/

/-- SES at `sleep` (R250, R251, R254): it ends only by expiry (R157), and then `next` follows. -/
def sleepStep (next : State → State) (s : State) : State := if s.sesExpired then next s else s

/-- SES at `tx_put(DESC[k])` (R252): the next byte of the descriptor, or WaitingForAck after the last. -/
def txPutStep (k : Nat) (s : State) : State :=
  match s.cfg.desc[k]? with
  | none => s.enterWaitingForAck
  | some b =>
    match s.txPut b with
    | .done t => if k + 1 < s.cfg.desc.length then t.sesWait (.txPut (k + 1)) else t.enterWaitingForAck
    | .timeout => s
    | .held => s
    | .broken => s.raiseBadState .ses

/-- SES at `get_byte(T_ACK_MS)` (R253): ACK runs its instruction; any other byte and silence restart from Start. -/
def ackStep (s : State) : Result :=
  match s.getByte with
  | .byte r t =>
    match decode (.ackByte r) with
    | .ok i => exec i t
    | .error _ => .next (t.failAck .notExpectedCommand)
  | .timeout => .next (s.failAck .timeout)
  | .held => .next s
  | .broken => .next (s.raiseBadState .ses)

/-- SES at the Start push of SetSpeed (R254): on a timeout the session restarts from Reset. -/
def startPushStep (s : State) : State :=
  match s.sessionPush (eventByte 4#3 0#8) with
  | .done t => t.enterWaitingForCommand
  | .timeout => (s.setResult .timeout).enterReset
  | .held => s
  | .broken => s.raiseBadState .ses

/-- SES at the frame byte of WaitingForCommand (R255): the byte popped is decoded and its instruction runs. -/
def frameStep (s : State) : Result :=
  match s.getByte with
  | .byte f t => exec (decodeFrame f) t
  | .timeout => .next (s.finishFrame .timeout)
  | .held => .next s
  | .broken => .next (s.raiseBadState .ses)

/-- SES at the Stop push of WaitingForCommand (R255): its result is ignored, and the session restarts from Reset. -/
def stopPushStep (s : State) : State :=
  match s.sessionPush (eventByte 5#3 0#8) with
  | .done t => t.enterReset
  | .timeout => s.enterReset
  | .held => s
  | .broken => s.raiseBadState .ses

/-- One SES transition (R240). SES that is stuck has none; SES about to run with SESS_STATE 6 or 7 raises BAD_STATE
(R313). SESS_PHASE decides what SES does (log entry 10). -/
def sesStep (s : State) : Result :=
  match s.sessPhase with
  | .stuck => .next s
  | ph =>
    if 6 ≤ s.sessState.toNat then .next (s.raiseBadState .ses)
    else
      match ph with
      | .entry => .next s.enterCurrent
      | .sleepRestart => .next (sleepStep State.enterInit s)
      | .txPut k => .next (txPutStep k s)
      | .getAck => ackStep s
      | .sleepSpeed => .next (sleepStep (fun t => t.sesWait .pushStart) s)
      | .pushStart => .next (startPushStep s)
      | .getFrame => frameStep s
      | .command f _ => exec (decodeFrame f) s
      | .pushStop => .next (stopPushStep s)
      | .stuck => .next s

/-! ### DSP -/

/-- One DSP transition (R290): at its pop, the event popped is decoded and its instruction runs. A presented request
ends only by DEV's acknowledgement (R291). -/
def dspStep (s : State) : Result :=
  match s.dspPhase with
  | .waitEvent =>
    if s.cbEmpty .eq then .next s
    else
      match s.cbPop .eq with
      | some (e, t) => exec (decodeEvent e) t
      | none => .next (s.raiseBadState .dsp)
  | .waitAck => .next s
  | .stuck => .next s

/-! ### DEV's acknowledgements -/

/-- DEV acknowledges the device request (R291), only while one is presented: DSP is back at its pop. An acknowledgement is
a step of DEV, and an operation that DEV's port holds is DEV's wait point (R10), so while it holds one DEV acknowledges
nothing: hence the deadlock of R353 (DEDUCED, log entry 16). -/
def ackRequest (s : State) : State :=
  match s.dspPhase with
  | .waitAck => if s.pendOf .dev = none then { s with dspPhase := .waitEvent } else s
  | _ => s

/-- DEV acknowledges the write forward (R222), only while one is presented and DEV's port holds no operation (R10, DEDUCED,
log entry 16): the command's result is Success, and SES goes on in the same transition (log entry 9), with the check of
SESS_STATE that `sesStep` makes (R313). -/
def ackForward (s : State) : State :=
  match s.sessPhase with
  | .command _ .forward =>
    if s.pendOf .dev ≠ none then s
    else if 6 ≤ s.sessState.toNat then s.raiseBadState .ses
    else s.finishFrame .success
  | _ => s

/-! ### One transition -/

/-- The transition a stimulus asks for. While the reset input is asserted no agent takes a step (R340). -/
def transition (x : Stimulus) (s : State) : Result :=
  match x with
  | .resetPin level => .next (s.driveReset level)
  | x =>
    if s.rstAsserted then .next s
    else
      match x with
      | .ses => sesStep s
      | .dsp => dspStep s
      | .issue p w => issue p w s
      | .resume p => resume p s
      | .expire w => .next (s.expire w)
      | .ackRequest => .next (ackRequest s)
      | .ackForward => .next (ackForward s)
      | .resetPin _ => .next s

/-- The transition that is taken next, and the state that no longer waits to take it: the oldest of the chosen ones, or
else a free choice (R156, R320; log entry 1). -/
def nextStimulus (s : State) : Stimulus × State :=
  match s.inputs with
  | x :: rest => (x, { s with inputs := rest })
  | [] => (Config.environment s.tick, { s with tick := s.tick + 1 })

/-! ### Placing one instruction -/

/-- An instance that holds the one byte `v`, next to be popped. -/
def State.withOneByte (s : State) (i : Inst) (v : Byte) : State :=
  let c := s.cbc i
  s.setCbc i { c with mem := c.mem.write (slotOf (s.cfg.cap i) c.rd) v, wr := c.rd + 1#8 }

/-- The state in which the unit that reads the code is about to read it, and moves next: DEV's port is idle, or SES is
at the wait for the byte that RX holds, or DSP is at its pop and EQ holds the byte (log entry 14). -/
def State.placeCode (s : State) : Code → State
  | .command w => { s.setPend .dev none with rstAsserted := false, inputs := .issue .dev w :: s.inputs }
  | .ackByte b =>
    { s.withOneByte .rx b with
      sessState := stWaitingForAck, sessPhase := .getAck, rstAsserted := false, inputs := .ses :: s.inputs }
  | .frameByte f =>
    { s.withOneByte .rx f with
      sessState := stWaitingForCommand, sessPhase := .getFrame, rstAsserted := false, inputs := .ses :: s.inputs }
  | .eventByte e =>
    { s.withOneByte .eq e with dspPhase := .waitEvent, rstAsserted := false, inputs := .dsp :: s.inputs }

end Sys2Proof.Machine
end

