-- ==== Sys2Proof/Machine/Step.lean ====
section
/-! DEFINITION. One step: one atomic transition of one agent (00_scope.md R9, R71), in a block whose parameters meet the
constraints of R5 (R6). -/

namespace Sys2Proof.Machine

/-- One step of the machine. -/
def step (s : State) : Host.Outcome State Fault Refusal :=
  if s.cfg.valid then transition (nextStimulus s).1 (nextStimulus s).2
  else .refused .badConfiguration

/-- `s` with the instruction that the opcode table numbers `w` placed where the very next step reads it. -/
def State.withFetchWord (s : State) (nbits w : Nat) : State :=
  match tableCode nbits w with
  | some c => s.placeCode c
  | none => s

end Sys2Proof.Machine
end

