-- ==== Sys2Proof/Safety.lean ====
section
/-! DEFINITION. The terms that claims about the block are stated in: what a transition answers and what it leaves alone,
the contents of a buffer, the invariants of the machine, quiescence (R358), the fault-free premise (R310), and the
duties of the surroundings on an infinite run (R12, R352, R353). -/

namespace Sys2Proof.Machine

/-! ### Answers and frames -/

/-- The pieces of the state that a claim can say are unchanged. -/
inductive Field where
  | cfg
  | rd (i : Inst)
  | wr (i : Inst)
  | drop (i : Inst)
  | bytes (sp : Space)
  | ckAcc
  | sessState
  | sessPhase
  | rdCk
  | cmdLen
  | sesResult
  | link
  | fault
  | dspPhase
  | dspEv
  | pendOf (p : Port)
  | sesExpired
  | wireOut
  | devReqs
  | writeFwds
  | responses
  | port
  | rstAsserted
  | epoch
  | inputs
  | tick
deriving DecidableEq, Repr

/-- The piece is the same in `t` as in `s`. Of a space it says that every byte reads as before. -/
def Field.same : Field → State → State → Prop
  | .cfg, s, t => t.cfg = s.cfg
  | .rd i, s, t => (t.cbc i).rd = (s.cbc i).rd
  | .wr i, s, t => (t.cbc i).wr = (s.cbc i).wr
  | .drop i, s, t => (t.cbc i).drop = (s.cbc i).drop
  | .bytes sp, s, t => ∀ a, t.readByte sp a = s.readByte sp a
  | .ckAcc, s, t => t.ckAcc = s.ckAcc
  | .sessState, s, t => t.sessState = s.sessState
  | .sessPhase, s, t => t.sessPhase = s.sessPhase
  | .rdCk, s, t => t.rdCk = s.rdCk
  | .cmdLen, s, t => t.cmdLen = s.cmdLen
  | .sesResult, s, t => t.sesResult = s.sesResult
  | .link, s, t => t.link = s.link
  | .fault, s, t => t.fault = s.fault
  | .dspPhase, s, t => t.dspPhase = s.dspPhase
  | .dspEv, s, t => t.dspEv = s.dspEv
  | .pendOf p, s, t => t.pendOf p = s.pendOf p
  | .sesExpired, s, t => t.sesExpired = s.sesExpired
  | .wireOut, s, t => t.wireOut = s.wireOut
  | .devReqs, s, t => t.devReqs = s.devReqs
  | .writeFwds, s, t => t.writeFwds = s.writeFwds
  | .responses, s, t => t.responses = s.responses
  | .port, s, t => t.port = s.port
  | .rstAsserted, s, t => t.rstAsserted = s.rstAsserted
  | .epoch, s, t => t.epoch = s.epoch
  | .inputs, s, t => t.inputs = s.inputs
  | .tick, s, t => t.tick = s.tick

/-- Every piece but the listed ones is the same. -/
def Frame (written : List Field) (s t : State) : Prop := ∀ f, f ∉ written → f.same s t

/-- `exec i s` answers a next state, of which `P` holds. -/
def Completes (i : Instr) (s : State) (P : State → Prop) : Prop := ∃ t, exec i s = .next t ∧ P t

/-- From `s` to `t` the running port's operation completed: it got exactly one response, status `st` and data `d` (R82),
its port is idle, and but for that nothing changed outside the listed pieces. -/
def Answers (st d : Byte) (written : List Field) (s t : State) : Prop :=
  t.responses = s.responses ++ [⟨s.port, st ++ d⟩] ∧ t.pendOf s.port = none ∧
  Frame (.responses :: .pendOf s.port :: written) s t

/-- The session sequencer's part of the state: what no port operation and no event may touch (R324). -/
def SessionFields : List Field :=
  [.sessState, .sessPhase, .rdCk, .cmdLen, .bytes .cmdBuf, .sesResult, .link, .sesExpired, .writeFwds]

/-- The dispatcher's part of the state (R324). -/
def DispatcherFields : List Field := [.dspPhase, .dspEv, .devReqs]

/-! ### Rows that share a shape -/

/-- Every command word with opcode `opc` decodes to what `mk` makes of its two operands (R80, R84). -/
def Encodes (opc : Byte) (mk : Byte → Byte → Instr) : Prop := ∀ a b, decodeCommand (mkCommand opc a b) = mk a b

/-- The opcodes whose row reads operand A (R84, column "reads"). -/
def readsA : List Byte :=
  [0x11#8, 0x31#8, 0x32#8, 0x34#8, 0x40#8, 0x41#8, 0x42#8, 0x43#8, 0x44#8, 0x45#8, 0x46#8] ++
  [0x50#8, 0x51#8, 0x52#8, 0x53#8, 0x54#8, 0x55#8, 0x56#8, 0x57#8, 0x58#8, 0x59#8, 0x60#8, 0x61#8] ++
  [0x70#8, 0x71#8, 0x72#8, 0x73#8, 0x74#8, 0x75#8, 0x76#8, 0x77#8, 0x78#8, 0x79#8]

/-- The opcodes whose row reads operand B (R84, column "reads"). -/
def readsB : List Byte :=
  [0x40#8, 0x41#8, 0x42#8, 0x43#8, 0x61#8, 0x70#8, 0x71#8, 0x72#8, 0x73#8, 0x74#8, 0x75#8, 0x76#8, 0x77#8, 0x78#8]

/-- The FR_MAKE rows: opcode, positioned class value, instruction (R180, R91). -/
def frMakeRows : List (Byte × Byte × (Byte → Byte → Instr)) :=
  [(0x40#8, 0x00#8, .frMakeSys), (0x41#8, 0x40#8, .frMakeCmd), (0x42#8, 0x80#8, .frMakeInfo),
   (0x43#8, 0xC0#8, .frMakeData)]

/-- The EV_MAKE rows: opcode, kind in position, instruction (R160, R103). -/
def evMakeRows : List (Byte × Byte × (Byte → Instr)) :=
  [(0x50#8, 0x00#8, .evMakeData), (0x51#8, 0x20#8, .evMakeScale), (0x52#8, 0x40#8, .evMakeMode),
   (0x53#8, 0x60#8, .evMakeReset), (0x54#8, 0x80#8, .evMakeStart), (0x55#8, 0xA0#8, .evMakeStop),
   (0x56#8, 0xC0#8, .evMakeRequest), (0x57#8, 0xE0#8, .evMakeEeprom)]

/-- The SEND_DATA rows: opcode, mode, instruction (R262). -/
def sendRows : List (Byte × Byte × (Byte → Byte → Instr)) :=
  [(0x70#8, 0#8, .sendData0), (0x71#8, 1#8, .sendData1), (0x72#8, 2#8, .sendData2), (0x73#8, 3#8, .sendData3),
   (0x74#8, 4#8, .sendData4), (0x75#8, 5#8, .sendData5), (0x76#8, 6#8, .sendData6), (0x77#8, 7#8, .sendData7)]

/-- The rows of the refused opcodes: opcode, instruction (R85, R136, R159). -/
def illegalRows : List (Byte × Instr) :=
  [(0x10#8, .illegal10), (0x12#8, .illegal12), (0x13#8, .illegal13), (0x14#8, .illegal14), (0x15#8, .illegal15),
   (0x17#8, .illegal17), (0x1B#8, .illegal1B), (0x1F#8, .illegal1F), (0x23#8, .illegal23), (0x27#8, .illegal27),
   (0x62#8, .illegal62), (0x63#8, .illegal63)]

/-- The event rows that have a device operation: kind, instruction (R292 to R297, R299). -/
def requestRows : List (BitVec 3 × (BitVec 5 → Instr)) :=
  [(0#3, .eventData), (1#3, .eventScale), (2#3, .eventMode), (3#3, .eventReset), (4#3, .eventStart),
   (5#3, .eventStop), (7#3, .eventEeprom)]

/-- Run several instructions one after another on the same port. -/
def execAll : List Instr → State → Result
  | [], s => .next s
  | i :: rest, s =>
    match exec i s with
    | .next t => execAll rest t
    | r => r

/-- Let SES take `n` transitions in a row (R240). -/
def sesSteps : Nat → State → Result
  | 0, s => .next s
  | n + 1, s =>
    match transition .ses s with
    | .next t => sesSteps n t
    | r => r

/-! ### Buffers -/

/-- The bytes an instance holds, oldest first: from the read count to the write count (R120, R121). -/
def State.queue (s : State) (i : Inst) : List Byte :=
  (List.range (s.cbSize i).toNat).map fun j =>
    s.readByte (.cbMem i) (slotOf (s.cfg.cap i) ((s.cbc i).rd + BitVec.ofNat 8 j))

/-- Pop `k` times. -/
def State.popMany (i : Inst) : Nat → State → Option (List Byte × State)
  | 0, s => some ([], s)
  | k + 1, s =>
    match s.cbPop i with
    | none => none
    | some (v, t) =>
      match State.popMany i k t with
      | none => none
      | some (vs, u) => some (v :: vs, u)

/-! ### Invariants -/

/-- The size of a space (R60). -/
def State.spaceSize (s : State) : Space → Nat
  | .cbMem i => s.cfg.cap i
  | .cmdBuf => Config.maxPayload
  | .sample => s.cfg.sampleSize

/-- Every space is in the canonical form. -/
def CanonicalMemory (s : State) : Prop := ∀ sp, (s.mem sp).wf = true

/-- Every listed address is inside its space (R60). -/
def AddressesInSpace (s : State) : Prop := ∀ sp, (s.mem sp).below (s.spaceSize sp) = true

/-- The buffers are legal (R126, R135, R23): sizes within the capacities, nothing ever dropped by TX, and every byte that
a pop can reach has been written since reset. -/
def BufferInv (s : State) : Prop :=
  s.cfg.valid = true ∧
  (∀ i, (s.cbSize i).toNat ≤ s.cfg.cap i) ∧
  s.cbTx.drop = 0#8 ∧
  ∀ i j, j < (s.cbSize i).toNat →
    ((s.cbc i).mem.read (slotOf (s.cfg.cap i) ((s.cbc i).rd + BitVec.ofNat 8 j))).isSome = true

/-- The command reader has read `k` bytes of the payload of `f` (R29, R210, R211, R215): a CMD frame of at most 32 bytes,
its length in `CMD_LEN`, its running checksum in `RD_CK`, and the bytes in `CMD_BUF`. -/
def ReadSoFar (s : State) (f : Byte) (k : Nat) : Prop :=
  classOf f = 1#2 ∧ (selOf f).toNat ≤ 5 ∧ s.cmdLen.toNat = (payloadLength f).toNat ∧
  s.rdCk = checksum (0xFF#8 ^^^ f) (s.readBytes .cmdBuf 0 k) ∧
  ∀ j, j < k → (s.cmdBuf.read j).isSome = true

/-- SES stands at a wait point of its current state's procedure, with the link that the state has set (R240 to R256, R31,
R241): before Init the link buffers are empty and receive is off, from SetSpeed on the negotiated rate is selected. -/
def SesAgrees (s : State) : Prop :=
  match s.sessPhase with
  | .entry => s.sessState = stStart ∧ s.link = 0#2 ∧ s.cbSize .rx = 0#8 ∧ s.cbSize .tx = 0#8
  | .sleepRestart =>
    (s.sessState = stStart ∨ s.sessState = stReset) ∧ s.rxEn = false ∧ s.cbSize .rx = 0#8 ∧ s.cbSize .tx = 0#8
  | .txPut k => s.sessState = stInit ∧ s.link = 1#2 ∧ k < s.cfg.desc.length
  | .getAck => s.sessState = stWaitingForAck ∧ s.link = 1#2
  | .sleepSpeed => s.sessState = stSetSpeed ∧ s.link = 3#2
  | .pushStart => s.sessState = stSetSpeed ∧ s.link = 3#2
  | .getFrame => s.sessState = stWaitingForCommand ∧ s.link = 3#2
  | .command f (.payload k) =>
    s.sessState = stWaitingForCommand ∧ s.link = 3#2 ∧ ReadSoFar s f k ∧ k < s.cmdLen.toNat
  | .command f .checksum => s.sessState = stWaitingForCommand ∧ s.link = 3#2 ∧ ReadSoFar s f s.cmdLen.toNat
  | .command f (.push _) => s.sessState = stWaitingForCommand ∧ s.link = 3#2 ∧ ReadSoFar s f s.cmdLen.toNat
  | .command f .forward => s.sessState = stWaitingForCommand ∧ s.link = 3#2 ∧ ReadSoFar s f s.cmdLen.toNat
  | .pushStop => s.sessState = stWaitingForCommand ∧ s.link = 3#2
  | .stuck => False

/-- The legal states of the block: legal buffers, SES at a wait point of its state, only finite waits expired (R36), no
agent stuck and no BAD_STATE (R313), and the reserved bits and values of FAULT and SES_RESULT never produced (R33,
R30). -/
def BlockInv (s : State) : Prop :=
  BufferInv s ∧ SesAgrees s ∧
  (s.sesExpired = true → s.sesWaitMs.isSome = true) ∧
  s.dspPhase ≠ .stuck ∧
  s.fault &&& 0xFC#8 = 0#8 ∧
  s.sesResult ≠ 5#3 ∧ s.sesResult ≠ 6#3

/-- An operation that may hold its port: EQ_PUSH, or a SEND_DATA with legal operands (R10, R153, R262, R321). -/
def MayHold (c : Config) : Instr → Prop
  | .eqPush _ _ => True
  | .sendData0 a b => (log2Length b).isSome = true ∧ a.toNat + b.toNat + 2 ≤ c.sampleSize
  | .sendData1 a b => (log2Length b).isSome = true ∧ a.toNat + b.toNat + 2 ≤ c.sampleSize
  | .sendData2 a b => (log2Length b).isSome = true ∧ a.toNat + b.toNat + 2 ≤ c.sampleSize
  | .sendData3 a b => (log2Length b).isSome = true ∧ a.toNat + b.toNat + 2 ≤ c.sampleSize
  | .sendData4 a b => (log2Length b).isSome = true ∧ a.toNat + b.toNat + 2 ≤ c.sampleSize
  | .sendData5 a b => (log2Length b).isSome = true ∧ a.toNat + b.toNat + 2 ≤ c.sampleSize
  | .sendData6 a b => (log2Length b).isSome = true ∧ a.toNat + b.toNat + 2 ≤ c.sampleSize
  | .sendData7 a b => (log2Length b).isSome = true ∧ a.toNat + b.toNat + 2 ≤ c.sampleSize
  | _ => False

/-- Every held operation is one that may hold, of a port that exists, and only a finite wait has expired (R35, R36,
R154). -/
def HeldInv (s : State) : Prop :=
  ∀ p h, s.pendOf p = some h →
    portExists s.cfg p = true ∧ MayHold s.cfg (decodeCommand h.word) ∧
    (h.expired = true → (portWaitMs s.cfg h.word).isSome = true)

/-- The deadlock of R353: a device request is presented, and DEV's port holds an EQ_PUSH with an infinite timeout on a full
event queue. -/
def Deadlocked (s : State) : Prop :=
  s.dspPhase = .waitAck ∧ s.cbFull .eq = true ∧ ∃ a x, s.pendOf .dev = some ⟨mkCommand 0x61#8 a 0#8, x⟩

/-! ### Runs -/

/-- The premise that R310 gives every claim: no operation without a meaning has been tried. -/
def FaultFree (s : State) : Prop := s.fault = 0#8

/-- A quiescent state (R358): every port idle, SES at a `get_byte` with RX empty or at a `sleep`, DSP at its pop with EQ
empty, TX empty, nothing presented to DEV. -/
def Quiescent (s : State) : Prop :=
  (∀ p, s.pendOf p = none) ∧
  (match s.sessPhase with
    | .getAck => s.cbEmpty .rx = true
    | .getFrame => s.cbEmpty .rx = true
    | .command _ (.payload _) => s.cbEmpty .rx = true
    | .command _ .checksum => s.cbEmpty .rx = true
    | .sleepRestart => True
    | .sleepSpeed => True
    | _ => False) ∧
  s.dspPhase = .waitEvent ∧ s.cbEmpty .eq = true ∧ s.cbEmpty .tx = true

/-- An infinite run (R358): each state is the next state of the one before it. -/
def IsRun (r : Nat → State) : Prop := ∀ n, step (r n) = .next (r (n + 1))

/-- The wait is pending and finite and its condition is false (R12, R157). -/
def WaitBlocked (s : State) : Wait → Prop
  | .port p => ∃ h, s.pendOf p = some h ∧ (portWaitMs s.cfg h.word).isSome = true ∧ s.cbFull .eq = true
  | .ses =>
    s.sesWaitMs.isSome = true ∧
    match s.sessPhase with
    | .getAck => s.cbEmpty .rx = true
    | .getFrame => s.cbEmpty .rx = true
    | .command _ (.payload _) => s.cbEmpty .rx = true
    | .command _ .checksum => s.cbEmpty .rx = true
    | .pushStart => s.cbFull .eq = true
    | .pushStop => s.cbFull .eq = true
    | .command _ (.push _) => s.cbFull .eq = true
    | _ => True

/-- TMR has set the wait's flag (R36). -/
def WaitExpired (s : State) : Wait → Prop
  | .port p => ∃ h, s.pendOf p = some h ∧ h.expired = true
  | .ses => s.sesExpired = true

/-- Weak fairness of TMR (R12): a finite wait whose condition stays false is eventually expired. -/
def TimerFair (r : Nat → State) : Prop :=
  ∀ w n, (∀ m, n ≤ m → WaitBlocked (r m) w) → ∃ m, n ≤ m ∧ WaitExpired (r m) w

/-- The duty of TXI (R352): while TX is not empty it eventually pops. -/
def TransmitterDrains (r : Nat → State) : Prop :=
  ∀ n, (∀ m, n ≤ m → (r m).cbEmpty .tx = false) → ∃ m, n ≤ m ∧ (r (m + 1)).wireOut ≠ (r m).wireOut

/-- The duty of DEV (R353): every device request and every write forward is eventually acknowledged. -/
def DeviceAcknowledges (r : Nat → State) : Prop :=
  ∀ n, ((r n).devRequest.isSome = true → ∃ m, n ≤ m ∧ (r m).devRequest = none) ∧
    ((r n).writeForward.isSome = true → ∃ m, n ≤ m ∧ (r m).writeForward = none)

end Sys2Proof.Machine
end

