-- ==== Sys2Proof/Certificates/Slice0/Obligations.lean ====
section
/-! DEFINITION. The statements for the provers. Each formalises what numbered rules of spec/ say; where a clause rests on a
choice of the model, the docstring names the log entry; where it rests on what the spec marks as its own inference or
choice, the docstring says so. That a transition which is not enabled answers the same state is the model's convention
(log entry 4). -/

open Sys2Proof Sys2Proof.Machine

/-! ### Encodings -/

/-- Decoding an encoded well-formed instruction gives it back, for every instruction and every operand (R84, R85, R90,
R95, R102). -/
def Obligations.DecodeEncodeAgree : Prop :=
  ∀ i : Instr, i.wf = true → decode (encode i) = .ok i

/-- The command decoder is total on all `2^24` words and gives a well-formed instruction, whose own word has the same
opcode, the word's A byte where the row reads A and 0 where it does not, and the word's B byte where the row reads B and
0 where it does not (R80, R81, R84's column "reads", R85, R86). -/
def Obligations.CommandDecoderTotal : Prop :=
  ∀ w : CommandWord, (decodeCommand w).wf = true ∧
    ∃ w', encode (decodeCommand w) = .command w' ∧ opcOf w' = opcOf w ∧
      opAOf w' = (if opcOf w ∈ readsA then opAOf w else 0#8) ∧ opBOf w' = (if opcOf w ∈ readsB then opBOf w else 0#8)

/-- Every frame byte and every event byte is the encoding of the well-formed instruction that SES or DSP decodes from
it: no bit of the byte is dropped (R90, R102). -/
def Obligations.BytesDecodeInjectively : Prop :=
  (∀ f : Byte, (decodeFrame f).wf = true ∧ encode (decodeFrame f) = .frameByte f) ∧
  (∀ e : Byte, (decodeEvent e).wf = true ∧ encode (decodeEvent e) = .eventByte e)

/-- The assembled examples of R86 and words of the vectors of 95_test_vectors.md, written out, decode to the
instructions they stand for. That `0x4C` is WRITE rests on the id that the model gives WRITE (log entry 7). -/
def Obligations.WrittenWordsDecode : Prop :=
  decodeCommand 0x410201#24 = .frMakeCmd 2#8 1#8 ∧ decodeCommand 0x614200#24 = .eqPush 0x42#8 0#8 ∧
  decodeCommand 0x711002#24 = .sendData1 0x10#8 2#8 ∧ decodeCommand 0x781134#24 = .sbWrite 0x11#8 0x34#8 ∧
  decodeCommand 0x324300#24 = .ckFold 0x43#8 ∧ decodeCommand 0x1E0000#24 = .cbEmptyTx ∧
  decodeCommand 0xFF1234#24 = .illegalOpcode 0xFF#8 ∧ decodeFrame 0x43#8 = .cmdSelect 0#3 ∧
  decodeFrame 0x4C#8 = .cmdWrite 1#3 ∧ decodeFrame 0x73#8 = .cmdLenReserved 6#3 3#3 ∧
  decodeEvent 0x42#8 = .eventMode 2#5 ∧ decodeAck 0x04#8 = .ok .waitAckAck

/-! ### Circular buffer controller -/

/-- CB_PUSH.RX (R130, R243): DISABLED with nothing else changed while `RX_EN` is 0; FULL and one more drop, saturating
at `0xFF`, on a full RX; else the byte is in the slot of the write count and the count is one higher. -/
def Obligations.CbPushRxResult : Prop :=
  Encodes 0x11#8 (fun a _ => .cbPushRx a) ∧
  ∀ (s : State) (a : Byte),
    (s.link.getLsbD 0 = false → Completes (.cbPushRx a) s (Answers 0x05#8 0#8 [] s)) ∧
    (s.link.getLsbD 0 = true → s.cbFull .rx = true →
      Completes (.cbPushRx a) s fun t =>
        t.cbRx.drop = (if s.cbRx.drop = 0xFF#8 then 0xFF#8 else s.cbRx.drop + 1#8) ∧
        Answers 0x02#8 0#8 [.drop .rx] s t) ∧
    (s.link.getLsbD 0 = true → s.cbFull .rx = false →
      Completes (.cbPushRx a) s fun t =>
        t.cbRx.wr = s.cbRx.wr + 1#8 ∧
        t.readByte (.cbMem .rx) (slotOf s.cfg.capRx s.cbRx.wr) = a ∧
        (∀ x, x ≠ slotOf s.cfg.capRx s.cbRx.wr → t.readByte (.cbMem .rx) x = s.readByte (.cbMem .rx) x) ∧
        Answers 0x00#8 0#8 [.wr .rx, .bytes (.cbMem .rx)] s t)

/-- CB_POP.TX (R131): EMPTY with nothing changed on an empty TX; else the byte in the slot of the read count is the
response's data and the next byte of the wire output, and the count is one higher. -/
def Obligations.CbPopTxResult : Prop :=
  Encodes 0x16#8 (fun _ _ => .cbPopTx) ∧
  ∀ s : State,
    (s.cbEmpty .tx = true → Completes .cbPopTx s (Answers 0x01#8 0#8 [] s)) ∧
    (s.cbEmpty .tx = false →
      Completes .cbPopTx s fun t =>
        t.cbTx.rd = s.cbTx.rd + 1#8 ∧
        t.wireOut = s.wireOut ++ [s.readByte (.cbMem .tx) (slotOf s.cfg.capTx s.cbTx.rd)] ∧
        Answers 0x00#8 (s.readByte (.cbMem .tx) (slotOf s.cfg.capTx s.cbTx.rd)) [.rd .tx, .wireOut] s t)

/-- CB_SIZE and CB_EMPTY of the three instances (R121, R122, R132, R133): the write count less the read count, and
whether the counts are equal; nothing changes; the opcodes of instance 3 are illegal. -/
def Obligations.CbSizeAndEmptyRead : Prop :=
  Encodes 0x18#8 (fun _ _ => .cbSizeEq) ∧ Encodes 0x19#8 (fun _ _ => .cbSizeRx) ∧
  Encodes 0x1A#8 (fun _ _ => .cbSizeTx) ∧ Encodes 0x1B#8 (fun _ _ => .illegal1B) ∧
  Encodes 0x1C#8 (fun _ _ => .cbEmptyEq) ∧ Encodes 0x1D#8 (fun _ _ => .cbEmptyRx) ∧
  Encodes 0x1E#8 (fun _ _ => .cbEmptyTx) ∧ Encodes 0x1F#8 (fun _ _ => .illegal1F) ∧
  ∀ s : State,
    Completes .cbSizeEq s (Answers 0x00#8 (s.cbEq.wr - s.cbEq.rd) [] s) ∧
    Completes .cbSizeRx s (Answers 0x00#8 (s.cbRx.wr - s.cbRx.rd) [] s) ∧
    Completes .cbSizeTx s (Answers 0x00#8 (s.cbTx.wr - s.cbTx.rd) [] s) ∧
    Completes .cbEmptyEq s (Answers 0x00#8 (if s.cbEq.wr = s.cbEq.rd then 1#8 else 0#8) [] s) ∧
    Completes .cbEmptyRx s (Answers 0x00#8 (if s.cbRx.wr = s.cbRx.rd then 1#8 else 0#8) [] s) ∧
    Completes .cbEmptyTx s (Answers 0x00#8 (if s.cbTx.wr = s.cbTx.rd then 1#8 else 0#8) [] s)

/-- CB_FULL and CB_DROPS of the three instances (R123, R134, R135): in a legal configuration CB_FULL answers 1 exactly
when the size has reached the capacity, for every size (R123 gives a test under a mask, and marks as derived that it is
this comparison); CB_DROPS answers the drop count; nothing changes. -/
def Obligations.CbFullAndDropsRead : Prop :=
  Encodes 0x20#8 (fun _ _ => .cbFullEq) ∧ Encodes 0x21#8 (fun _ _ => .cbFullRx) ∧
  Encodes 0x22#8 (fun _ _ => .cbFullTx) ∧ Encodes 0x23#8 (fun _ _ => .illegal23) ∧
  Encodes 0x24#8 (fun _ _ => .cbDropsEq) ∧ Encodes 0x25#8 (fun _ _ => .cbDropsRx) ∧
  Encodes 0x26#8 (fun _ _ => .cbDropsTx) ∧ Encodes 0x27#8 (fun _ _ => .illegal27) ∧
  ∀ s : State, s.cfg.valid = true →
    Completes .cbFullEq s (Answers 0x00#8 (if s.cfg.capEq ≤ (s.cbEq.wr - s.cbEq.rd).toNat then 1#8 else 0#8) [] s) ∧
    Completes .cbFullRx s (Answers 0x00#8 (if s.cfg.capRx ≤ (s.cbRx.wr - s.cbRx.rd).toNat then 1#8 else 0#8) [] s) ∧
    Completes .cbFullTx s (Answers 0x00#8 (if s.cfg.capTx ≤ (s.cbTx.wr - s.cbTx.rd).toNat then 1#8 else 0#8) [] s) ∧
    Completes .cbDropsEq s (Answers 0x00#8 s.cbEq.drop [] s) ∧
    Completes .cbDropsRx s (Answers 0x00#8 s.cbRx.drop [] s) ∧
    Completes .cbDropsTx s (Answers 0x00#8 s.cbTx.drop [] s)

/-- FIFO (R127, R128, which the spec marks as derived): at most `CAP` bytes pushed into an empty instance are all
accepted, and as many pops give exactly them, in order, and leave it empty; wherever the counters stand, so also
across their wrap (R128). -/
def Obligations.PushThenPopIsFifo : Prop :=
  ∀ (s : State) (i : Inst) (vs : List Byte),
    s.cfg.valid = true → s.cbEmpty i = true → vs.length ≤ s.cfg.cap i →
    ∃ t u, s.cbPushAll i vs = some t ∧ State.popMany i vs.length t = some (vs, u) ∧ u.cbEmpty i = true

/-- FIFO order at every step of the machine (R72, R163, R241): each instance holds after the step what it held before,
less at most one byte taken from its old end, plus bytes added at its new end; or it was emptied, RX
and TX where receive is disabled after the step (a link reset), any of them at a block reset. -/
def Obligations.EveryStepKeepsFifoOrder : Prop :=
  ∀ s t : State, step s = .next t →
    ∀ i, (∃ added, t.queue i = s.queue i ++ added) ∨
      (∃ v, s.queue i = v :: t.queue i) ∨
      (t.queue i = [] ∧ ((i ≠ .eq ∧ t.link.getLsbD 0 = false) ∨ t.epoch = s.epoch + 1))

/-- Legal buffers stay legal at every step (R126 and R135's last sentence, which the spec marks as derived; R23):
sizes within the capacities, no drop counted by TX, and no pop can reach a slot that no push has written since reset.
-/
def Obligations.EveryStepKeepsBuffersLegal : Prop :=
  ∀ s t : State, BufferInv s → step s = .next t → BufferInv t

/-- No instance is ever both empty and full, in any state of a legal configuration (R126, which the spec marks as
derived). -/
def Obligations.NeverEmptyAndFull : Prop :=
  ∀ (s : State) (i : Inst), s.cfg.valid = true → ¬ (s.cbEmpty i = true ∧ s.cbFull i = true)

/-! ### Event queue -/

/-- EQ_TRY_PUSH (R152): on a full queue FULL and one more drop, saturating; else the event is queued as it is. -/
def Obligations.EqTryPushResult : Prop :=
  Encodes 0x60#8 (fun a _ => .eqTryPush a) ∧
  ∀ (s : State) (a : Byte),
    (s.cbFull .eq = true →
      Completes (.eqTryPush a) s fun t =>
        t.cbEq.drop = (if s.cbEq.drop = 0xFF#8 then 0xFF#8 else s.cbEq.drop + 1#8) ∧
        Answers 0x02#8 0#8 [.drop .eq] s t) ∧
    (s.cbFull .eq = false →
      Completes (.eqTryPush a) s fun t =>
        t.cbEq.wr = s.cbEq.wr + 1#8 ∧
        t.readByte (.cbMem .eq) (slotOf s.cfg.capEq s.cbEq.wr) = a ∧
        (∀ x, x ≠ slotOf s.cfg.capEq s.cbEq.wr → t.readByte (.cbMem .eq) x = s.readByte (.cbMem .eq) x) ∧
        Answers 0x00#8 0#8 [.wr .eq, .bytes (.cbMem .eq)] s t)

/-- EQ_PUSH (R153, R154, R157): where the queue has room the event is queued and the answer is OK; on a full queue a
finite wait that has expired answers TIMEOUT with no drop counted, and otherwise the port holds the word and nothing
else changes. -/
def Obligations.EqPushResult : Prop :=
  Encodes 0x61#8 (fun a b => .eqPush a b) ∧
  ∀ (s : State) (a b : Byte),
    (s.cbFull .eq = false →
      Completes (.eqPush a b) s fun t =>
        t.cbEq.wr = s.cbEq.wr + 1#8 ∧
        t.readByte (.cbMem .eq) (slotOf s.cfg.capEq s.cbEq.wr) = a ∧
        (∀ x, x ≠ slotOf s.cfg.capEq s.cbEq.wr → t.readByte (.cbMem .eq) x = s.readByte (.cbMem .eq) x) ∧
        Answers 0x00#8 0#8 [.wr .eq, .bytes (.cbMem .eq)] s t) ∧
    (s.cbFull .eq = true → b ≠ 0#8 → s.portExpired = true → Completes (.eqPush a b) s (Answers 0x03#8 0#8 [] s)) ∧
    (s.cbFull .eq = true → (b = 0#8 ∨ s.portExpired = false) →
      Completes (.eqPush a b) s fun t =>
        t.pendOf s.port = some ⟨mkCommand 0x61#8 a b, s.portExpired⟩ ∧ Frame [.pendOf s.port] s t)

/-- A held EQ_PUSH (R155, which the spec marks as derived; R157): when its port takes its transition, it completes
where the queue has room, with the event at the new end of the queue and one OK; on a full queue it answers TIMEOUT
exactly if its finite wait has expired; and otherwise it goes on holding with no response (that the transition then
answers the same state: log entry 4). -/
def Obligations.HeldPushTransition : Prop :=
  ∀ (s : State) (p : Port) (a b : Byte) (x : Bool),
    s.cfg.valid = true → s.rstAsserted = false → s.pendOf p = some ⟨mkCommand 0x61#8 a b, x⟩ →
    ∃ t, transition (.resume p) s = .next t ∧
      (s.cbFull .eq = false →
        t.queue .eq = s.queue .eq ++ [a] ∧ t.responses = s.responses ++ [⟨p, 0x0000#16⟩] ∧ t.pendOf p = none) ∧
      (s.cbFull .eq = true → (x = true ∧ b ≠ 0#8) →
        t.queue .eq = s.queue .eq ∧ t.responses = s.responses ++ [⟨p, 0x0300#16⟩] ∧ t.pendOf p = none) ∧
      (s.cbFull .eq = true → ¬ (x = true ∧ b ≠ 0#8) →
        t.queue .eq = s.queue .eq ∧ t.responses = s.responses ∧ t.pendOf p = s.pendOf p)

/-- TMR (R12, R36, R154, R157): an expiry sets the flag of a held EQ_PUSH with a finite timeout code, and does nothing
to an idle port, to an EQ_PUSH with code 0, or to a held SEND_DATA. It sets the flag of SES at a `sleep`, at a
`get_byte` and at an event push, and does nothing to SES at the entry of a state, at `tx_put`, or while DEV has a write
forward. That it may set the flag whether or not the wait's condition holds is R157's reading of R12 (log entry 8). -/
def Obligations.ExpirySetsFiniteWaitsOnly : Prop :=
  ∀ (s : State), s.rstAsserted = false →
    ((s.sessPhase = .entry ∨ (∃ k, s.sessPhase = .txPut k) ∨ ∃ f, s.sessPhase = .command f .forward) →
      transition (.expire .ses) s = .next s) ∧
    ((s.sessPhase ∈ [SesPhase.sleepRestart, .getAck, .sleepSpeed, .pushStart, .getFrame, .pushStop] ∨
        ∃ f pt, s.sessPhase = .command f pt ∧ pt ≠ .forward) →
      ∃ t, transition (.expire .ses) s = .next t ∧ t.sesExpired = true ∧ Frame [.sesExpired] s t) ∧
    ∀ p : Port,
      (s.pendOf p = none → transition (.expire (.port p)) s = .next s) ∧
      (∀ a b x, s.pendOf p = some ⟨mkCommand 0x61#8 a b, x⟩ →
        (b = 0#8 → transition (.expire (.port p)) s = .next s) ∧
        (b ≠ 0#8 → ∃ t, transition (.expire (.port p)) s = .next t ∧
          t.pendOf p = some ⟨mkCommand 0x61#8 a b, true⟩ ∧ Frame [.pendOf p] s t)) ∧
      (∀ r ∈ sendRows, ∀ a b x, s.pendOf p = some ⟨mkCommand r.1 a b, x⟩ →
        transition (.expire (.port p)) s = .next s)

/-- EV_MAKE of the eight kinds, EV_KIND, EV_INFO (R160, R161, R162): the kind in bits 7:5 over the info masked to 5
bits, and each field back. Nothing changes. -/
def Obligations.EventCodecResult : Prop :=
  (∀ r ∈ evMakeRows, Encodes r.1 (fun a _ => r.2.2 a)) ∧
  Encodes 0x58#8 (fun a _ => .evKind a) ∧ Encodes 0x59#8 (fun a _ => .evInfo a) ∧
  ∀ (s : State) (a : Byte),
    (∀ r ∈ evMakeRows, Completes (r.2.2 a) s (Answers 0x00#8 (r.2.1 ||| (a &&& 0x1F#8)) [] s)) ∧
    Completes (.evKind a) s (Answers 0x00#8 (a >>> 5) [] s) ∧
    Completes (.evInfo a) s (Answers 0x00#8 (a &&& 0x1F#8) [] s)

/-! ### Frame codec and checksum generator -/

/-- FR_MAKE of the four classes (R180): for the length `2^k`, `k` from 0 to 5, the frame byte; for every other length
the fault ILLEGAL_OPERAND and nothing else. -/
def Obligations.FrMakeResult : Prop :=
  (∀ r ∈ frMakeRows, Encodes r.1 r.2.2) ∧
  ∀ r ∈ frMakeRows, ∀ (s : State) (a b : Byte),
    (∀ k : Nat, k ≤ 5 → a.toNat = 2 ^ k →
      Completes (r.2.2 a b) s (Answers 0x00#8 (r.2.1 ||| (b &&& 0x07#8) ||| (BitVec.ofNat 8 k <<< 3)) [] s)) ∧
    ((∀ k : Nat, k ≤ 5 → a.toNat ≠ 2 ^ k) →
      Completes (r.2.2 a b) s fun t => t.fault = s.fault ||| 0x02#8 ∧ Answers 0xFE#8 0#8 [.fault] s t)

/-- FR_CLASS, FR_CONTENT, FR_LENGTH (R181, R182, R183): bits 7:6 in position, bits 2:0, and 2 to the power of bits
5:3, with no fault for the reserved selectors. The spec marks R181 as derived, from R90 and R93. -/
def Obligations.FrameFieldsRead : Prop :=
  Encodes 0x44#8 (fun a _ => .frClass a) ∧ Encodes 0x45#8 (fun a _ => .frContent a) ∧
  Encodes 0x46#8 (fun a _ => .frLength a) ∧
  ∀ (s : State) (a : Byte),
    Completes (.frClass a) s (Answers 0x00#8 (a &&& 0xC0#8) [] s) ∧
    Completes (.frContent a) s (Answers 0x00#8 (a &&& 0x07#8) [] s) ∧
    Completes (.frLength a) s (Answers 0x00#8 (BitVec.ofNat 8 (2 ^ (selOf a).toNat)) [] s)

/-- The round-trip law of the frame codec (R184, which the spec marks as derived), through the operations: the frame
byte that FR_MAKE answers gives its class, its length and its content back. -/
def Obligations.FrameCodecRoundTrip : Prop :=
  ∀ r ∈ frMakeRows, ∀ (s : State) (k : Nat) (x : Byte), k ≤ 5 → x.toNat ≤ 7 →
    ∃ f t, exec (r.2.2 (BitVec.ofNat 8 (2 ^ k)) x) s = .next t ∧ Answers 0x00#8 f [] s t ∧
      Completes (.frClass f) t (Answers 0x00#8 r.2.1 [] t) ∧
      Completes (.frLength f) t (Answers 0x00#8 (BitVec.ofNat 8 (2 ^ k)) [] t) ∧
      Completes (.frContent f) t (Answers 0x00#8 x [] t)

/-- CK_INIT, CK_SEED, CK_FOLD, CK_READ, CK_CHECK (R190 to R194), and `CK_ACC` after reset (R25). -/
def Obligations.ChecksumGeneratorResult : Prop :=
  Encodes 0x30#8 (fun _ _ => .ckInit) ∧ Encodes 0x31#8 (fun a _ => .ckSeed a) ∧
  Encodes 0x32#8 (fun a _ => .ckFold a) ∧ Encodes 0x33#8 (fun _ _ => .ckRead) ∧
  Encodes 0x34#8 (fun a _ => .ckCheck a) ∧ (∀ c, (State.resetWith c).ckAcc = 0xFF#8) ∧
  ∀ (s : State) (a : Byte),
    Completes .ckInit s (fun t => t.ckAcc = 0xFF#8 ∧ Answers 0x00#8 0xFF#8 [.ckAcc] s t) ∧
    Completes (.ckSeed a) s (fun t => t.ckAcc = a ∧ Answers 0x00#8 a [.ckAcc] s t) ∧
    Completes (.ckFold a) s
      (fun t => t.ckAcc = s.ckAcc ^^^ a ∧ Answers 0x00#8 (s.ckAcc ^^^ a) [.ckAcc] s t) ∧
    Completes .ckRead s (Answers 0x00#8 s.ckAcc [] s) ∧
    Completes (.ckCheck a) s (Answers 0x00#8 (if s.ckAcc = a then 1#8 else 0#8) [] s)

/-- The closure law of the checksum (R186, which the spec marks as derived). -/
def Obligations.ChecksumClosure : Prop :=
  ∀ bytes : List Byte, checksum 0xFF#8 (bytes ++ [checksum 0xFF#8 bytes]) = 0#8

/-- Message validity (R187, whose last sentence the spec marks as derived): a message is well formed exactly when its
last byte is the checksum of the others, and changing any one byte of the payload or the checksum makes a well-formed
message ill-formed. -/
def Obligations.OneCorruptByteIsCaught : Prop :=
  ∀ (f k : Byte) (p : List Byte),
    (checksum 0xFF#8 (f :: p ++ [k]) = 0#8 ↔ k = checksum 0xFF#8 (f :: p)) ∧
    (checksum 0xFF#8 (f :: p ++ [k]) = 0#8 →
      ∀ (j : Nat) (v : Byte), j < (p ++ [k]).length → (p ++ [k])[j]? ≠ some v →
        checksum 0xFF#8 (f :: (p ++ [k]).set j v) ≠ 0#8)

/-- A checksum computed over several operations of one port with no other operation between them (R350): CK_INIT, then
CK_FOLD of each byte, leaves the XOR fold of R185 in `CK_ACC`, and CK_CHECK then answers 1 for that byte alone. -/
def Obligations.PortComputesChecksum : Prop :=
  ∀ (s : State) (bytes : List Byte) (k : Byte),
    ∃ t, execAll (.ckInit :: bytes.map .ckFold) s = .next t ∧ t.ckAcc = checksum 0xFF#8 bytes ∧
      Completes (.ckCheck k) t (Answers 0x00#8 (if k = checksum 0xFF#8 bytes then 1#8 else 0#8) [] t)

/-! ### Sample buffer and data transmission -/

/-- SB_WRITE and SB_READ (R260, R261, R63): at an address inside SAMPLE one byte is written or read; at any other the
fault ILLEGAL_OPERAND and nothing else. A byte that nothing has written reads as its draw (R32, log entry 5). -/
def Obligations.SampleBufferResult : Prop :=
  Encodes 0x78#8 (fun a b => .sbWrite a b) ∧ Encodes 0x79#8 (fun a _ => .sbRead a) ∧
  ∀ (s : State) (a b : Byte),
    (a.toNat < s.cfg.sampleSize →
      (Completes (.sbWrite a b) s fun t =>
        t.readByte .sample a.toNat = b ∧
        (∀ x, x ≠ a.toNat → t.readByte .sample x = s.readByte .sample x) ∧
        Answers 0x00#8 0#8 [.bytes .sample] s t) ∧
      Completes (.sbRead a) s (Answers 0x00#8 (s.readByte .sample a.toNat) [] s)) ∧
    (s.cfg.sampleSize ≤ a.toNat →
      (Completes (.sbWrite a b) s fun t => t.fault = s.fault ||| 0x02#8 ∧ Answers 0xFE#8 0#8 [.fault] s t) ∧
      (Completes (.sbRead a) s fun t => t.fault = s.fault ||| 0x02#8 ∧ Answers 0xFE#8 0#8 [.fault] s t))

/-- SEND_DATA of the eight modes that does not send (R262, R321, R355): a size that is not 1, 2, 4, 8, 16 or 32, or a
range that passes SAMPLE_SIZE, faults in every session state; with legal operands it is refused outside
WaitingForCommand; and in WaitingForCommand without room in TX its port holds it, with nothing else changed. -/
def Obligations.SendDataDoesNotSend : Prop :=
  ∀ r ∈ sendRows, Encodes r.1 r.2.2 ∧ ∀ (s : State) (a b : Byte),
    (((∀ k : Nat, k ≤ 5 → b.toNat ≠ 2 ^ k) ∨ s.cfg.sampleSize < a.toNat + b.toNat + 2) →
      Completes (r.2.2 a b) s fun t => t.fault = s.fault ||| 0x02#8 ∧ Answers 0xFE#8 0#8 [.fault] s t) ∧
    (∀ k : Nat, k ≤ 5 → b.toNat = 2 ^ k → a.toNat + b.toNat + 2 ≤ s.cfg.sampleSize →
      (s.sessState ≠ 5#3 → Completes (r.2.2 a b) s (Answers 0x04#8 0#8 [] s)) ∧
      (s.sessState = 5#3 → s.cfg.capTx - (s.cbTx.wr - s.cbTx.rd).toNat < b.toNat + 2 →
        Completes (r.2.2 a b) s fun t =>
          t.pendOf s.port = some ⟨mkCommand r.1 a b, s.portExpired⟩ ∧ Frame [.pendOf s.port] s t))

/-- SEND_DATA of the eight modes that sends (R262, R351): in WaitingForCommand with room in TX, the frame byte is
written before the payload and the checksum after it, the whole message of `n + 2` bytes is at the new end of TX, and
no other byte of SAMPLE or of TX's slots changes. -/
def Obligations.SendDataSendsMessage : Prop :=
  ∀ r ∈ sendRows, ∀ (s : State) (a b : Byte) (k : Nat),
    s.cfg.valid = true → k ≤ 5 → b.toNat = 2 ^ k → a.toNat + b.toNat + 2 ≤ s.cfg.sampleSize →
    s.sessState = 5#3 → b.toNat + 2 ≤ s.cfg.capTx - (s.cbTx.wr - s.cbTx.rd).toNat →
    Completes (r.2.2 a b) s fun t =>
      let f := 0xC0#8 ||| r.2.1 ||| (BitVec.ofNat 8 k <<< 3)
      let payload := s.readBytes .sample (a.toNat + 1) b.toNat
      let ck := checksum 0xFF#8 (f :: payload)
      t.queue .tx = s.queue .tx ++ (f :: payload ++ [ck]) ∧
      t.cbTx.wr = s.cbTx.wr + (b + 2#8) ∧
      (∀ x, (∀ j, j < b.toNat + 2 → x ≠ slotOf s.cfg.capTx (s.cbTx.wr + BitVec.ofNat 8 j)) →
        t.readByte (.cbMem .tx) x = s.readByte (.cbMem .tx) x) ∧
      t.readByte .sample a.toNat = f ∧ t.readByte .sample (a.toNat + b.toNat + 1) = ck ∧
      (∀ x, x ≠ a.toNat → x ≠ a.toNat + b.toNat + 1 → t.readByte .sample x = s.readByte .sample x) ∧
      Answers 0x00#8 0#8 [.wr .tx, .bytes (.cbMem .tx), .bytes .sample] s t

/-! ### Status -/

/-- SES_STATE, SES_RESULT, LINK_READ, FAULT_READ (R264 to R267): each register zero-extended; reading changes nothing;
and what they read after reset (R26, R30, R31, R33). -/
def Obligations.StatusReads : Prop :=
  Encodes 0x7A#8 (fun _ _ => .sesState) ∧ Encodes 0x7B#8 (fun _ _ => .sesResult) ∧
  Encodes 0x7C#8 (fun _ _ => .linkRead) ∧ Encodes 0x7D#8 (fun _ _ => .faultRead) ∧
  (∀ s : State,
    Completes .sesState s (Answers 0x00#8 (BitVec.ofNat 8 s.sessState.toNat) [] s) ∧
    Completes .sesResult s (Answers 0x00#8 (BitVec.ofNat 8 s.sesResult.toNat) [] s) ∧
    Completes .linkRead s (Answers 0x00#8 (BitVec.ofNat 8 s.link.toNat) [] s) ∧
    Completes .faultRead s (Answers 0x00#8 s.fault [] s)) ∧
  ∀ c, (State.resetWith c).sessState = 0#3 ∧ (State.resetWith c).sesResult = 7#3 ∧
    (State.resetWith c).link = 0#2 ∧ (State.resetWith c).fault = 0#8

/-! ### Faults -/

/-- Illegal opcodes (R311, R136, R159): every command word whose opcode is not in the opcode map decodes to its
refused row or to the catch-all, and its operation only takes the fault ILLEGAL_OPCODE, response `0xFF00`, whatever
its operands. -/
def Obligations.IllegalOpcodeFaults : Prop :=
  (∀ r ∈ illegalRows, Encodes r.1 (fun _ _ => r.2)) ∧
  (∀ opc, opc ∉ legalOpcodes → opc ∉ refusedOpcodes → Encodes opc (fun _ _ => .illegalOpcode opc)) ∧
  ∀ s : State,
    (∀ r ∈ illegalRows,
      Completes r.2 s fun t => t.fault = s.fault ||| 0x01#8 ∧ Answers 0xFF#8 0#8 [.fault] s t) ∧
    (∀ opc, Completes (.illegalOpcode opc) s fun t =>
      t.fault = s.fault ||| 0x01#8 ∧ Answers 0xFF#8 0#8 [.fault] s t)

/-- FAULT is sticky (R33): at every step that is not a block reset, every bit that was set is still set. -/
def Obligations.FaultBitsStick : Prop :=
  ∀ s t : State, step s = .next t → t.epoch = s.epoch → t.fault &&& s.fault = s.fault

/-- Only SES writes the session's registers and only DSP the dispatcher's (R26, R31, R324): whatever a port issues,
the session state, its wait point, its reader, its result, the link, the device request and the histories of forwards
and requests stay. -/
def Obligations.PortsCannotTouchSessionOrDispatcher : Prop :=
  ∀ (w : CommandWord) (s t : State), exec (decodeCommand w) s = .next t →
    ∀ f, f ∈ SessionFields ++ DispatcherFields → f.same s t

/-! ### Session -/

/-- `link_reset` (R241): receive disabled, both counters of RX and of TX 0, and nothing else: `BAUD_SEL`, the drop
counts and every byte stay. The effect is the spec's own choice: "this effect is the spec's choice" (R241). -/
def Obligations.LinkResetEffect : Prop :=
  ∀ s : State,
    s.linkReset.link.getLsbD 0 = false ∧ s.linkReset.link.getLsbD 1 = s.link.getLsbD 1 ∧
    s.linkReset.cbRx.rd = 0#8 ∧ s.linkReset.cbRx.wr = 0#8 ∧ s.linkReset.cbTx.rd = 0#8 ∧ s.linkReset.cbTx.wr = 0#8 ∧
    Frame [.link, .rd .rx, .wr .rx, .rd .tx, .wr .tx] s s.linkReset

/-- Start, Reset and the entry of Init (R240, R250, R251, R252): from the entry of Start or Reset one SES transition
performs the link reset and begins the sleep; the sleep ends only by expiry, and then Init selects the initial rate,
enables receive and begins to send the descriptor. Before the expiry the transition answers the same state (log entry
4); that the sleep does so in SESS_STATE 2 to 5 too is the model's choice (log entry 10). -/
def Obligations.RestartSleepInit : Prop :=
  ∀ s : State, s.rstAsserted = false →
    (s.sessPhase = .entry → (s.sessState = 0#3 ∨ s.sessState = 1#3) →
      ∃ t, transition .ses s = .next t ∧ t.sessPhase = .sleepRestart ∧ t.sesExpired = false ∧
        t.link.getLsbD 0 = false ∧ t.link.getLsbD 1 = s.link.getLsbD 1 ∧
        t.cbRx.rd = 0#8 ∧ t.cbRx.wr = 0#8 ∧ t.cbTx.rd = 0#8 ∧ t.cbTx.wr = 0#8 ∧
        Frame [.sessPhase, .sesExpired, .link, .rd .rx, .wr .rx, .rd .tx, .wr .tx] s t) ∧
    (s.sessPhase = .sleepRestart → s.sessState.toNat ≤ 5 →
      (s.sesExpired = false → transition .ses s = .next s) ∧
      (s.sesExpired = true →
        ∃ t, transition .ses s = .next t ∧ t.sessState = 2#3 ∧ t.link = 1#2 ∧ t.sessPhase = .txPut 0 ∧
          t.sesExpired = false ∧ Frame [.sessState, .link, .sessPhase, .sesExpired] s t))

/-- Init sends the descriptor (R252, R244): at `tx_put(DESC[k])` SES waits while TX is full, and else one transition
adds `DESC[k]` to TX and goes on to the next byte, or to WaitingForAck after the last. A wait answers the same state
(log entry 4). -/
def Obligations.InitSendsDescriptor : Prop :=
  ∀ (s : State) (k : Nat) (b : Byte), s.cfg.valid = true → s.rstAsserted = false → s.sessState = 2#3 →
    s.sessPhase = .txPut k → s.cfg.desc[k]? = some b →
    (s.cbFull .tx = true → transition .ses s = .next s) ∧
    (s.cbFull .tx = false →
      ∃ t, transition .ses s = .next t ∧ t.queue .tx = s.queue .tx ++ [b] ∧ t.sesExpired = false ∧
        (if k + 1 < s.cfg.desc.length then t.sessState = 2#3 ∧ t.sessPhase = .txPut (k + 1)
          else t.sessState = 3#3 ∧ t.sessPhase = .getAck) ∧
        Frame [.sessState, .sessPhase, .sesExpired, .wr .tx, .bytes (.cbMem .tx)] s t)

/-- WaitingForAck (R253, R157, R241, R250, R315): silence waits until it expires and then restarts from Start with
Timeout; a byte other than ACK restarts from Start with NotExpectedCommand. In either case Start resets the link and
begins its sleep in the same transition, no event is pushed, and nothing else changes. A wait answers the same state
(log entry 4). -/
def Obligations.AckWaitRestarts : Prop :=
  ∀ s : State, s.rstAsserted = false → s.sessState = 3#3 → s.sessPhase = .getAck →
    (s.cbEmpty .rx = true → s.sesExpired = false → transition .ses s = .next s) ∧
    (s.cbEmpty .rx = true → s.sesExpired = true →
      ∃ t, transition .ses s = .next t ∧ t.sesResult = 2#3 ∧ t.sessState = 0#3 ∧ t.sessPhase = .sleepRestart ∧
        t.sesExpired = false ∧ t.link.getLsbD 0 = false ∧ t.link.getLsbD 1 = s.link.getLsbD 1 ∧
        t.cbRx.rd = 0#8 ∧ t.cbRx.wr = 0#8 ∧ t.cbTx.rd = 0#8 ∧ t.cbTx.wr = 0#8 ∧ t.cbEq = s.cbEq ∧
        Frame [.sesResult, .sessState, .sessPhase, .sesExpired, .link, .rd .rx, .wr .rx, .rd .tx, .wr .tx] s t) ∧
    (s.cbEmpty .rx = false → s.readByte (.cbMem .rx) (slotOf s.cfg.capRx s.cbRx.rd) ≠ 0x04#8 →
      ∃ t, transition .ses s = .next t ∧ t.sesResult = 4#3 ∧ t.sessState = 0#3 ∧ t.sessPhase = .sleepRestart ∧
        t.sesExpired = false ∧ t.link.getLsbD 0 = false ∧ t.link.getLsbD 1 = s.link.getLsbD 1 ∧
        t.cbRx.rd = 0#8 ∧ t.cbRx.wr = 0#8 ∧ t.cbTx.rd = 0#8 ∧ t.cbTx.wr = 0#8 ∧ t.cbEq = s.cbEq ∧
        Frame [.sesResult, .sessState, .sessPhase, .sesExpired, .link, .rd .rx, .wr .rx, .rd .tx, .wr .tx] s t)

/-- WAIT_ACK.ACK (R253, R254): the result is Success, and SetSpeed selects the negotiated rate and begins its sleep.
-/
def Obligations.AcknowledgeEntersSetSpeed : Prop :=
  decode (.ackByte 0x04#8) = .ok .waitAckAck ∧
  ∀ s : State, Completes .waitAckAck s fun t =>
    t.sesResult = 0#3 ∧ t.sessState = 4#3 ∧ t.link.getLsbD 1 = true ∧ t.link.getLsbD 0 = s.link.getLsbD 0 ∧
    t.sessPhase = .sleepSpeed ∧ t.sesExpired = false ∧
    Frame [.sesResult, .sessState, .link, .sessPhase, .sesExpired] s t

/-- SetSpeed after its entry (R157, R240, R246, R254): the sleep ends only by expiry, which begins the push of the
Start event `0x80`, and pushes nothing yet (R240, where program P3 is looser: log entry 13); the event is pushed when
the queue has room, and the session waits for commands; if the push expires the result is Timeout and the session
restarts from Reset, which resets the link and begins its sleep in the same transition (the spec's own choice: "The
timeout branch is the spec's choice"). A wait answers the same state (log entry 4). -/
def Obligations.SetSpeedSignalsStart : Prop :=
  ∀ s : State, s.cfg.valid = true → s.rstAsserted = false → s.sessState = 4#3 →
    (s.sessPhase = .sleepSpeed → s.sesExpired = false → transition .ses s = .next s) ∧
    (s.sessPhase = .sleepSpeed → s.sesExpired = true →
      ∃ t, transition .ses s = .next t ∧ t.sessPhase = .pushStart ∧ t.sesExpired = false ∧
        Frame [.sessPhase, .sesExpired] s t) ∧
    (s.sessPhase = .pushStart → s.cbFull .eq = false →
      ∃ t, transition .ses s = .next t ∧ t.queue .eq = s.queue .eq ++ [0x80#8] ∧ t.sessState = 5#3 ∧
        t.sessPhase = .getFrame ∧ t.sesExpired = false ∧
        Frame [.wr .eq, .bytes (.cbMem .eq), .sessState, .sessPhase, .sesExpired] s t) ∧
    (s.sessPhase = .pushStart → s.cbFull .eq = true → s.sesExpired = false → transition .ses s = .next s) ∧
    (s.sessPhase = .pushStart → s.cbFull .eq = true → s.sesExpired = true →
      ∃ t, transition .ses s = .next t ∧ t.sesResult = 2#3 ∧ t.sessState = 1#3 ∧ t.sessPhase = .sleepRestart ∧
        t.sesExpired = false ∧ t.link.getLsbD 0 = false ∧ t.link.getLsbD 1 = s.link.getLsbD 1 ∧
        t.cbRx.rd = 0#8 ∧ t.cbRx.wr = 0#8 ∧ t.cbTx.rd = 0#8 ∧ t.cbTx.wr = 0#8 ∧ t.cbEq = s.cbEq ∧
        Frame [.sesResult, .sessState, .sessPhase, .sesExpired, .link, .rd .rx, .wr .rx, .rd .tx, .wr .tx] s t)

/-- The single-byte frames of WaitingForCommand (R214, R215, R220, R221): NACK and DATA are a Success that changes
nothing else, and the session waits for the next frame; every other SYS byte and INFO is NotExpectedCommand and a
reserved length is FormatError, after each of which the Stop push begins, which completes only in a later transition
(R240, log entry 13). Nothing further is read. -/
def Obligations.SingleByteFramesResult : Prop :=
  ∀ (s : State) (lll xxx : BitVec 3),
    (∀ i ∈ [Instr.sysNack, .dataFrame lll xxx],
      Completes i s fun t =>
        t.sesResult = 0#3 ∧ t.sessState = 5#3 ∧ t.sessPhase = .getFrame ∧ t.sesExpired = false ∧
        Frame [.sesResult, .sessState, .sessPhase, .sesExpired] s t) ∧
    (∀ i ∈ [Instr.sysOther lll xxx, .infoFrame lll xxx],
      Completes i s fun t =>
        t.sesResult = 4#3 ∧ t.sessPhase = .pushStop ∧ t.sesExpired = false ∧
        Frame [.sesResult, .sessPhase, .sesExpired] s t) ∧
    Completes (.cmdLenReserved lll xxx) s fun t =>
      t.sesResult = 3#3 ∧ t.sessPhase = .pushStop ∧ t.sesExpired = false ∧
      Frame [.sesResult, .sessPhase, .sesExpired] s t

/-- A CMD frame begins to be read (R210, R216): from the frame byte `f` of SELECT, WRITE or another id, with at most
32 payload bytes, `CMD_LEN` is the length, `RD_CK` is `0xFF ^ f`, and SES waits for payload byte 0. -/
def Obligations.CommandFramesBeginRead : Prop :=
  ∀ (s : State) (i : Instr) (f : Byte) (lll xxx : BitVec 3), s.sessPhase = .getFrame → lll.toNat ≤ 5 →
    (i = .cmdSelect lll ∨ i = .cmdWrite lll ∨ i = .cmdOther lll xxx) → encode i = .frameByte f →
    Completes i s fun t =>
      t.cmdLen.toNat = 2 ^ lll.toNat ∧ t.rdCk = 0xFF#8 ^^^ f ∧ t.sessPhase = .command f (.payload 0) ∧
      t.sesExpired = false ∧ Frame [.cmdLen, .rdCk, .sessPhase, .sesExpired] s t

/-- The command reader's payload loop (R210, R211, R242). At the wait for payload byte `k` with RX not empty, one SES
transition pops the oldest byte of RX, writes it to `CMD_BUF[k]`, folds it into `RD_CK`, and goes on to the next
payload byte, or to the checksum byte after the last; nothing else changes. And when RX holds the whole payload of `f`
and a last byte, as many SES transitions as there are payload bytes read them into `CMD_BUF` in order and leave SES at
the checksum byte, with the running checksum of the whole in `RD_CK` and only those bytes gone from RX. -/
def Obligations.ReaderReadsPayload : Prop :=
  (∀ (s : State) (f : Byte) (k : Nat), s.cfg.valid = true → s.rstAsserted = false → s.sessState = 5#3 →
    s.sessPhase = .command f (.payload k) → classOf f = 1#2 → (selOf f).toNat ≤ 5 → s.cbEmpty .rx = false →
    ∃ t, transition .ses s = .next t ∧
      let r := s.readByte (.cbMem .rx) (slotOf s.cfg.capRx s.cbRx.rd)
      s.queue .rx = r :: t.queue .rx ∧ t.cbRx.rd = s.cbRx.rd + 1#8 ∧
      t.readByte .cmdBuf k = r ∧ (∀ x, x ≠ k → t.readByte .cmdBuf x = s.readByte .cmdBuf x) ∧
      t.rdCk = s.rdCk ^^^ r ∧
      t.sessPhase = .command f (if k + 1 < s.cmdLen.toNat then .payload (k + 1) else .checksum) ∧
      t.sesExpired = false ∧ Frame [.rd .rx, .bytes .cmdBuf, .rdCk, .sessPhase, .sesExpired] s t) ∧
  ∀ (s : State) (f k : Byte) (p rest : List Byte), s.cfg.valid = true → s.rstAsserted = false →
    s.sessState = 5#3 → s.sessPhase = .command f (.payload 0) → classOf f = 1#2 → (selOf f).toNat ≤ 5 →
    p.length = (payloadLength f).toNat → s.cmdLen.toNat = p.length → s.rdCk = 0xFF#8 ^^^ f →
    s.queue .rx = p ++ k :: rest →
    ∃ t, sesSteps p.length s = .next t ∧ t.sessPhase = .command f .checksum ∧ t.queue .rx = k :: rest ∧
      t.readBytes .cmdBuf 0 p.length = p ∧ t.rdCk = checksum 0xFF#8 (f :: p) ∧
      (∀ x, p.length ≤ x → t.readByte .cmdBuf x = s.readByte .cmdBuf x) ∧
      Frame [.rd .rx, .bytes .cmdBuf, .rdCk, .sessPhase, .sesExpired] s t

/-- The checksum byte of SELECT, WRITE and the other ids (R212, R217, R218, R219): a byte that differs from `RD_CK` is
CRCError whichever the id; on a match SELECT begins the push of the Mode event of the first payload byte, WRITE begins
the push of the Reset event if that byte is the sentinel and else forwards the payload to DEV, and any other id is
NotExpectedCommand. A push that begins here pushes nothing yet: it completes in a later transition (R240, where program
P3 is looser: log entry 13). -/
def Obligations.ChecksumByteDecides : Prop :=
  ∀ (s : State) (lll xxx : BitVec 3) (i : Instr) (f : Byte),
    (i = .cmdSelect lll ∨ i = .cmdWrite lll ∨ i = .cmdOther lll xxx) → encode i = .frameByte f →
    s.sessPhase = .command f .checksum → s.cbEmpty .rx = false →
    (s.readByte (.cbMem .rx) (slotOf s.cfg.capRx s.cbRx.rd) ≠ s.rdCk →
      Completes i s fun t =>
        t.sesResult = 1#3 ∧ t.sessPhase = .pushStop ∧ t.cbRx.rd = s.cbRx.rd + 1#8 ∧ t.sesExpired = false ∧
        Frame [.sesResult, .sessPhase, .sesExpired, .rd .rx] s t) ∧
    (s.readByte (.cbMem .rx) (slotOf s.cfg.capRx s.cbRx.rd) = s.rdCk →
      (i = .cmdSelect lll → Completes i s fun t =>
        t.sessPhase = .command f (.push (0x40#8 ||| (s.readByte .cmdBuf 0 &&& 0x1F#8))) ∧
        t.cbRx.rd = s.cbRx.rd + 1#8 ∧ t.sesExpired = false ∧ Frame [.sessPhase, .sesExpired, .rd .rx] s t) ∧
      (i = .cmdWrite lll → s.readByte .cmdBuf 0 = s.cfg.resetSentinel → Completes i s fun t =>
        t.sessPhase = .command f (.push 0x60#8) ∧
        t.cbRx.rd = s.cbRx.rd + 1#8 ∧ t.sesExpired = false ∧ Frame [.sessPhase, .sesExpired, .rd .rx] s t) ∧
      (i = .cmdWrite lll → s.readByte .cmdBuf 0 ≠ s.cfg.resetSentinel → Completes i s fun t =>
        t.writeForward = some (s.readBytes .cmdBuf 0 s.cmdLen.toNat) ∧
        t.writeFwds = s.writeFwds ++ [s.readBytes .cmdBuf 0 s.cmdLen.toNat] ∧
        t.sessPhase = .command f .forward ∧ t.cbRx.rd = s.cbRx.rd + 1#8 ∧ t.sesExpired = false ∧
        Frame [.sessPhase, .sesExpired, .rd .rx, .writeFwds] s t) ∧
      (i = .cmdOther lll xxx → Completes i s fun t =>
        t.sesResult = 4#3 ∧ t.sessPhase = .pushStop ∧ t.cbRx.rd = s.cbRx.rd + 1#8 ∧ t.sesExpired = false ∧
        Frame [.sesResult, .sessPhase, .sesExpired, .rd .rx] s t))

/-- The end of a good command (R217, R218, R222, R246): the event that SELECT or WRITE pushes is at the new end of the
queue and the result is Success, or Timeout where the push expired, and on a full queue the push waits until it has;
DEV's acknowledgement of a write forward is Success. While DEV's port holds an operation DEV does not acknowledge (R10,
R222: log entry 16). That the acknowledgement and SES's going on are one transition is the model's choice (log entry 9).
A wait answers the same state (log entry 4). -/
def Obligations.CommandEffectCompletes : Prop :=
  ∀ (s : State) (lll : BitVec 3) (i : Instr) (f e : Byte), s.cfg.valid = true → lll.toNat ≤ 5 →
    (i = .cmdSelect lll ∨ i = .cmdWrite lll) → encode i = .frameByte f →
    (s.sessPhase = .command f (.push e) →
      (s.cbFull .eq = false → Completes i s fun t =>
        t.queue .eq = s.queue .eq ++ [e] ∧ t.sesResult = 0#3 ∧ t.sessState = 5#3 ∧ t.sessPhase = .getFrame ∧
        t.sesExpired = false ∧
        Frame [.wr .eq, .bytes (.cbMem .eq), .sesResult, .sessState, .sessPhase, .sesExpired] s t) ∧
      (s.cbFull .eq = true → s.sesExpired = false → exec i s = .next s) ∧
      (s.cbFull .eq = true → s.sesExpired = true → Completes i s fun t =>
        t.sesResult = 2#3 ∧ t.sessPhase = .pushStop ∧ t.sesExpired = false ∧
        Frame [.sesResult, .sessPhase, .sesExpired] s t)) ∧
    (s.sessPhase = .command f .forward → s.rstAsserted = false → s.sessState = 5#3 →
      transition .ses s = .next s ∧
      (s.pendOf .dev ≠ none → transition .ackForward s = .next s) ∧
      (s.pendOf .dev = none →
        ∃ t, transition .ackForward s = .next t ∧ t.sesResult = 0#3 ∧ t.sessState = 5#3 ∧ t.sessPhase = .getFrame ∧
          t.sesExpired = false ∧ Frame [.sesResult, .sessPhase, .sesExpired] s t))

/-- A failed read has no effect (R213): while SES reads a command's payload or checksum in a legal state, a transition
after which the command has not succeeded changes only `CMD_BUF`, `RD_CK`, what RX has lost, and SES's own place and
result: no event is pushed and no payload forwarded. -/
def Obligations.FailedReadHasNoEffect : Prop :=
  ∀ (s t : State) (f : Byte) (pt : CmdPoint), BlockInv s → s.rstAsserted = false → s.sessPhase = .command f pt →
    ((∃ k, pt = .payload k) ∨ pt = .checksum) → transition .ses s = .next t →
    (t.sessPhase = .pushStop ∨ (∃ q, t.sessPhase = .command f (.payload q)) ∨ t.sessPhase = .command f .checksum) →
    Frame [.rd .rx, .bytes .cmdBuf, .rdCk, .sessPhase, .sesExpired, .sesResult] s t

/-- Every failure of WaitingForCommand leads to Reset (R210, R255, R315): at the wait for a frame byte, for a payload
byte and for the checksum byte, silence waits until it expires, and is then Timeout, and the Stop push begins (with
`CMD_BUF` and `RD_CK` as they are). That is every Timeout of R210 and R255; the other failures begin the Stop push in
SingleByteFramesResult, ChecksumByteDecides and CommandEffectCompletes. The Stop event `0xA0` is pushed when the queue
has room; and pushed or expired, the session restarts from Reset with the result it has, and Reset resets the link and
begins its sleep. A wait answers the same state (log entry 4); the push completes in a later transition than the one
that begins it (R240, log entry 13). -/
def Obligations.FailureRestartsFromReset : Prop :=
  ∀ s : State, s.cfg.valid = true → s.rstAsserted = false → s.sessState = 5#3 →
    ((s.sessPhase = .getFrame ∨
        ∃ f pt, s.sessPhase = .command f pt ∧ classOf f = 1#2 ∧ (selOf f).toNat ≤ 5 ∧
          ((∃ k, pt = .payload k) ∨ pt = .checksum)) →
      s.cbEmpty .rx = true →
      (s.sesExpired = false → transition .ses s = .next s) ∧
      (s.sesExpired = true →
        ∃ t, transition .ses s = .next t ∧ t.sesResult = 2#3 ∧ t.sessPhase = .pushStop ∧ t.sesExpired = false ∧
          Frame [.sesResult, .sessPhase, .sesExpired] s t)) ∧
    (s.sessPhase = .pushStop → s.cbFull .eq = true → s.sesExpired = false → transition .ses s = .next s) ∧
    (s.sessPhase = .pushStop → (s.cbFull .eq = false ∨ s.sesExpired = true) →
      ∃ t, transition .ses s = .next t ∧
        t.queue .eq = (if s.cbFull .eq = false then s.queue .eq ++ [0xA0#8] else s.queue .eq) ∧
        t.sesResult = s.sesResult ∧ t.sessState = 1#3 ∧ t.sessPhase = .sleepRestart ∧ t.sesExpired = false ∧
        t.link.getLsbD 0 = false ∧ t.link.getLsbD 1 = s.link.getLsbD 1 ∧
        t.cbRx.rd = 0#8 ∧ t.cbRx.wr = 0#8 ∧ t.cbTx.rd = 0#8 ∧ t.cbTx.wr = 0#8 ∧
        (s.cbFull .eq = true → t.cbEq = s.cbEq) ∧
        Frame [.wr .eq, .bytes (.cbMem .eq), .sessState, .sessPhase, .sesExpired, .link, .rd .rx, .wr .rx, .rd .tx,
          .wr .tx] s t)

/-! ### Dispatcher -/

/-- The events with a device operation (R291 to R297, R299): the event is in `DSP_EV`, the request presented to DEV is
the event byte itself, it is recorded, and DSP waits for the acknowledgement; nothing else changes. -/
def Obligations.EventsPresentRequests : Prop :=
  ∀ r ∈ requestRows, ∀ (s : State) (n : BitVec 5),
    decodeEvent (r.1 ++ n) = r.2 n ∧
    Completes (r.2 n) s fun t =>
      t.devRequest = some (r.1 ++ n) ∧ t.dspEv = r.1 ++ n ∧ t.dspPhase = .waitAck ∧
      t.devReqs = s.devReqs ++ [(r.1, n)] ∧ Frame [.dspEv, .dspPhase, .devReqs] s t

/-- The unused kind (R298): the event is consumed into `DSP_EV`, no request is presented, and DSP is at its pop. -/
def Obligations.RequestKindIsConsumed : Prop :=
  ∀ (s : State) (n : BitVec 5),
    decodeEvent (6#3 ++ n) = .eventRequest n ∧
    Completes (.eventRequest n) s fun t =>
      t.dspEv = 6#3 ++ n ∧ t.dspPhase = .waitEvent ∧ t.devRequest = none ∧ Frame [.dspEv, .dspPhase] s t

/-- The handshake of a device request (R10, R290, R291): while one is presented DSP takes no transition; DEV's
acknowledgement brings DSP back to its pop and changes nothing else; DEV does not acknowledge while its own port holds
an operation (log entry 16); and where none is presented there is nothing to acknowledge. That the acknowledgement ends
the wait in one transition is the model's choice (log entry 9). What is not enabled answers the same state (log entry
4). -/
def Obligations.RequestHandshake : Prop :=
  ∀ s : State, s.rstAsserted = false →
    (s.dspPhase = .waitAck → transition .dsp s = .next s ∧
      (s.pendOf .dev ≠ none → transition .ackRequest s = .next s) ∧
      (s.pendOf .dev = none →
        ∃ t, transition .ackRequest s = .next t ∧ t.dspPhase = .waitEvent ∧ Frame [.dspPhase] s t)) ∧
    (s.dspPhase = .waitEvent → transition .ackRequest s = .next s ∧
      (s.cbEmpty .eq = true → transition .dsp s = .next s))

/-- The deadlock of R353 lasts, whatever any agent does, until a block reset: while DEV's port holds an EQ_PUSH with an
infinite timeout on a full event queue and a device request is presented, the push waits for DSP's pop, DSP for the
acknowledgement, and DEV for the push (R10, R291, log entry 16). No request follows, and the queue stays as it is. -/
def Obligations.EveryStepKeepsDeadlock : Prop :=
  ∀ s t : State, Deadlocked s → step s = .next t → t.epoch = s.epoch →
    Deadlocked t ∧ t.devReqs = s.devReqs ∧ t.queue .eq = s.queue .eq

/-- One request at a time, in queue order, at every step of the machine (R300, which the spec marks as derived; R290,
R291, R298): the history of device requests changes only by one entry at its end, the oldest event of the queue, taken
from it when no request was presented, and then presented; and a step that adds no entry takes no event from the queue
but one of kind 6, unless it is a block reset. So every popped event of another kind has its entry. -/
def Obligations.RequestsFollowQueueOrder : Prop :=
  ∀ s t : State, step s = .next t →
    (∃ e, s.dspPhase = .waitEvent ∧ s.cbEmpty .eq = false ∧ s.queue .eq = e :: t.queue .eq ∧ kindOf e ≠ 6#3 ∧
      t.devReqs = s.devReqs ++ [(kindOf e, infoOf e)] ∧ t.devRequest = some e) ∨
    (t.devReqs = s.devReqs ∧
      ((∃ added, t.queue .eq = s.queue .eq ++ added) ∨
        (∃ e, s.dspPhase = .waitEvent ∧ s.queue .eq = e :: t.queue .eq ∧ kindOf e = 6#3 ∧ t.devRequest = none) ∨
        (t.queue .eq = [] ∧ t.epoch = s.epoch + 1)))

/-- The wire output is the bytes popped from TX (R38, R131). At every step of the machine it changes only by one byte at
its end, the oldest byte of TX, taken from it; a step that adds none takes no byte from TX, unless it empties it as a
link reset, after which receive is off, or as a block reset; and a CB_POP.TX on a TX that holds a byte takes it and adds
it. -/
def Obligations.WireOutputFollowsTx : Prop :=
  (∀ s t : State, step s = .next t →
    (∃ v, s.queue .tx = v :: t.queue .tx ∧ t.wireOut = s.wireOut ++ [v]) ∨
    (t.wireOut = s.wireOut ∧
      ((∃ added, t.queue .tx = s.queue .tx ++ added) ∨
        (t.queue .tx = [] ∧ (t.link.getLsbD 0 = false ∨ t.epoch = s.epoch + 1))))) ∧
  ∀ s : State, s.cbEmpty .tx = false →
    Completes .cbPopTx s fun t => ∃ v, s.queue .tx = v :: t.queue .tx ∧ t.wireOut = s.wireOut ++ [v]

/-! ### Invariants of the machine -/

/-- Every step keeps every space (R60) in its canonical form, which is the model's own (log entry 5). -/
def Obligations.EveryStepKeepsMemoryCanonical : Prop :=
  ∀ s t : State, CanonicalMemory s → step s = .next t → CanonicalMemory t

/-- Every step from a legal state keeps every listed address inside its space: no slot index, no index of `CMD_BUF`
and no address of SAMPLE is ever out of range (R60 to R63). -/
def Obligations.EveryStepKeepsAddressesInSpace : Prop :=
  ∀ s t : State, BlockInv s → AddressesInSpace s → step s = .next t → AddressesInSpace t

/-- Every step from a legal state leads to a legal state (R240 to R256, R313): SES stays at a wait point of one of its
six states with the link that state has set, the command reader's registers agree with what it has read, no agent is
stuck, BAD_STATE is never raised, and no reserved value is produced. -/
def Obligations.EveryStepKeepsBlockLegal : Prop :=
  ∀ s t : State, BlockInv s → step s = .next t → BlockInv t

/-- Every step keeps the held operations legal (R35, R36, R154, R321): only EQ_PUSH and SEND_DATA with legal operands
hold a port, and only a finite wait has expired. -/
def Obligations.EveryStepKeepsHeldOperationsLegal : Prop :=
  ∀ s t : State, HeldInv s → step s = .next t → HeldInv t

/-- After reset, in every legal configuration, every invariant holds, and SES stands at the entry of Start, DSP at its
pop with EQ empty, and every port is idle (R341, R342). The values of `rdCk`, `cmdLen` and `dspEv` are the model's
(log entry 6) and are not claimed here. -/
def Obligations.ResetIsLegal : Prop :=
  ∀ c : Config, c.valid = true →
    CanonicalMemory (State.resetWith c) ∧ AddressesInSpace (State.resetWith c) ∧ BlockInv (State.resetWith c) ∧
    HeldInv (State.resetWith c) ∧ FaultFree (State.resetWith c) ∧ (State.resetWith c).cfg = c ∧
    (State.resetWith c).sessState = 0#3 ∧ (State.resetWith c).sessPhase = .entry ∧
    (State.resetWith c).dspPhase = .waitEvent ∧ (State.resetWith c).cbEmpty .eq = true ∧
    ∀ p, (State.resetWith c).pendOf p = none

/-- The block reset (R340): while the reset input is asserted no agent takes a step, and when it is released every
register has its reset value and the histories stay. That the model answers a step without a transition with the same
state is its convention (log entry 4). -/
def Obligations.BlockResetEffect : Prop :=
  ∀ (s : State) (x : Stimulus), s.rstAsserted = true →
    ((∀ l, x ≠ .resetPin l) → transition x s = .next s) ∧
    ∃ t, transition (.resetPin false) s = .next t ∧ t.rstAsserted = false ∧
      t.wireOut = s.wireOut ∧ t.devReqs = s.devReqs ∧ t.writeFwds = s.writeFwds ∧ t.responses = s.responses ∧
      t.cfg = s.cfg ∧ (∀ i, (t.cbc i).rd = 0#8 ∧ (t.cbc i).wr = 0#8 ∧ (t.cbc i).drop = 0#8) ∧
      t.ckAcc = 0xFF#8 ∧ t.sessState = 0#3 ∧ t.sessPhase = .entry ∧ t.sesResult = 7#3 ∧ t.link = 0#2 ∧
      t.fault = 0#8 ∧ t.dspPhase = .waitEvent ∧ t.sesExpired = false ∧ ∀ p, t.pendOf p = none

/-- The parameters, and with them the descriptor, are never written (R64, R343); and a configuration that breaks a
constraint of R5 is refused as a whole (R6). -/
def Obligations.ConfigurationIsConstant : Prop :=
  (∀ s t : State, step s = .next t → t.cfg = s.cfg) ∧
  ∀ s : State, s.cfg.valid = false → step s = .refused .badConfiguration

/-- A step runs the decoded instruction: the operation that an idle existing port issues (R4, R85) or that a port holds
(R155), and no operation where the port does not exist (R4, R5), already holds one (R35), or holds none to go on with:
that step changes nothing but the list of chosen transitions (log entry 4). It runs the frame that SES pops in
WaitingForCommand or is inside (R255, R240), the acknowledgement (R253), and the event that DSP pops (R290), each
popped byte gone from its buffer. The list of chosen transitions is the model's (log entry 1), and so is running a held
operation or a CMD frame again at each of its transitions (log entry 12). -/
def Obligations.StepRunsDecodedInstruction : Prop :=
  ∀ (s : State) (rest : List Stimulus), s.cfg.valid = true → s.rstAsserted = false →
    (∀ p w, s.inputs = .issue p w :: rest → portExists s.cfg p = true → s.pendOf p = none →
      step s = exec (decodeCommand w) { s with inputs := rest, port := p }) ∧
    (∀ p w, s.inputs = .issue p w :: rest → (portExists s.cfg p = false ∨ s.pendOf p ≠ none) →
      step s = .next { s with inputs := rest }) ∧
    (∀ p, s.inputs = .resume p :: rest → s.pendOf p = none → step s = .next { s with inputs := rest }) ∧
    (∀ p h, s.inputs = .resume p :: rest → s.pendOf p = some h →
      step s = exec (decodeCommand h.word) { s with inputs := rest, port := p }) ∧
    (∀ f pt, s.inputs = .ses :: rest → s.sessState = 5#3 → s.sessPhase = .command f pt →
      step s = exec (decodeFrame f) { s with inputs := rest }) ∧
    (s.inputs = .ses :: rest → s.sessState = 5#3 → s.sessPhase = .getFrame → s.cbEmpty .rx = false →
      step s = exec (decodeFrame (s.readByte (.cbMem .rx) (slotOf s.cfg.capRx s.cbRx.rd)))
        { s with inputs := rest, cbRx := { s.cbRx with rd := s.cbRx.rd + 1#8 } }) ∧
    (s.inputs = .ses :: rest → s.sessState = 3#3 → s.sessPhase = .getAck → s.cbEmpty .rx = false →
      s.readByte (.cbMem .rx) (slotOf s.cfg.capRx s.cbRx.rd) = 0x04#8 →
      step s = exec .waitAckAck { s with inputs := rest, cbRx := { s.cbRx with rd := s.cbRx.rd + 1#8 } }) ∧
    (s.inputs = .dsp :: rest → s.dspPhase = .waitEvent → s.cbEmpty .eq = false →
      step s = exec (decodeEvent (s.readByte (.cbMem .eq) (slotOf s.cfg.capEq s.cbEq.rd)))
        { s with inputs := rest, cbEq := { s.cbEq with rd := s.cbEq.rd + 1#8 } })

/-- A quiescent state (R358): no agent of the block can step until an external agent acts or TMR expires a wait; each
transition answers the same state (log entry 4). -/
def Obligations.QuiescentBlockDoesNotStep : Prop :=
  ∀ (s : State) (p : Port), BlockInv s → Quiescent s → s.sesExpired = false → s.rstAsserted = false →
    transition .ses s = .next s ∧ transition .dsp s = .next s ∧ transition (.resume p) s = .next s ∧
    transition .ackRequest s = .next s ∧ transition .ackForward s = .next s
end

