-- ==== Sys2Proof/Laws/Encoding.lean ====
section
/-! SUPPORT. Taking the fields back out of a word that was put together from them. -/

namespace Sys2Proof

@[simp] theorem opcOf_mkCommand (o a b : Byte) : opcOf (mkCommand o a b) = o := by
  simp only [opcOf, mkCommand]
  ext i hi
  simp only [BitVec.getElem_extractLsb', BitVec.getLsbD_append]
  simp [show ¬ (16 + i < 8) by omega, show ¬(16 + i - 8 < 8) by omega, show 16 + i - 8 - 8 = i by omega,
    BitVec.getLsbD_eq_getElem hi]

@[simp] theorem opAOf_mkCommand (o a b : Byte) : opAOf (mkCommand o a b) = a := by
  simp only [opAOf, mkCommand]
  ext i hi
  simp only [BitVec.getElem_extractLsb', BitVec.getLsbD_append]
  simp [show ¬ (8 + i < 8) by omega, hi]

@[simp] theorem opBOf_mkCommand (o a b : Byte) : opBOf (mkCommand o a b) = b := by
  simp only [opBOf, mkCommand]
  ext i hi
  simp only [BitVec.getElem_extractLsb', BitVec.getLsbD_append]
  simp [hi]

/-- A command word is its three fields. -/
theorem mkCommand_fields (w : CommandWord) : mkCommand (opcOf w) (opAOf w) (opBOf w) = w := by
  simp only [mkCommand, opcOf, opAOf, opBOf]
  apply BitVec.eq_of_getLsbD_eq
  intro i hi
  simp only [BitVec.getLsbD_append, BitVec.getLsbD_extractLsb']
  by_cases h1 : i < 8
  · simp [h1]
  · by_cases h2 : i - 8 < 8
    · simp [h1, h2, show 8 + (i - 8) = i by omega]
    · simp [h1, h2, show i - 8 - 8 < 8 by omega, show 16 + (i - 8 - 8) = i by omega]

@[simp] theorem classOf_mkFrame (c : BitVec 2) (l x : BitVec 3) : classOf (mkFrame c l x) = c := by
  revert c l x; decide

@[simp] theorem selOf_mkFrame (c : BitVec 2) (l x : BitVec 3) : selOf (mkFrame c l x) = l := by
  revert c l x; decide

@[simp] theorem contentOf_mkFrame (c : BitVec 2) (l x : BitVec 3) : contentOf (mkFrame c l x) = x := by
  revert c l x; decide

/-- A frame byte is its three fields. -/
theorem mkFrame_fields (f : Byte) : mkFrame (classOf f) (selOf f) (contentOf f) = f := by
  revert f; decide

@[simp] theorem kindOf_mkEvent (k : BitVec 3) (n : BitVec 5) : kindOf (mkEvent k n) = k := by
  revert k n; decide

@[simp] theorem infoOf_mkEvent (k : BitVec 3) (n : BitVec 5) : infoOf (mkEvent k n) = n := by
  revert k n; decide

/-- An event byte is its two fields. -/
theorem mkEvent_fields (e : Byte) : mkEvent (kindOf e) (infoOf e) = e := by
  revert e; decide

/-- A decoded command word is the opcode map on its fields. -/
@[simp] theorem decodeCommand_mkCommand (o a b : Byte) : decodeCommand (mkCommand o a b) = decodeOpcode o a b := by
  simp [decodeCommand]

end Sys2Proof
end

