-- ==== Sys2Proof/Laws/Memory.lean ====
section
/-! SUPPORT. The laws of a byte space: read after write, and that every memory operation keeps the canonical form and
the bound of the addresses. -/

namespace Sys2Proof.Machine

@[simp] theorem Memory.read_nil (a : Nat) : Memory.read [] a = none := rfl

theorem Memory.read_cons (b : Nat) (v : Byte) (m : Memory) (a : Nat) :
    Memory.read ((b, v) :: m) a = if b = a then some v else Memory.read m a := rfl

/-- Below the least address nothing is listed. -/
theorem Memory.read_of_risesFrom {m : Memory} {n a : Nat} (h : Memory.risesFrom n m = true) (ha : a < n) :
    Memory.read m a = none := by
  induction m generalizing n with
  | nil => rfl
  | cons c rest ih =>
    obtain ⟨b, v⟩ := c
    simp only [Memory.risesFrom, Bool.and_eq_true, decide_eq_true_eq] at h
    rw [Memory.read_cons, if_neg (by omega)]
    exact ih h.2 (by omega)

/-- A read after a write to the same place gives the value written. -/
@[simp] theorem Memory.read_write_same (m : Memory) (a : Nat) (v : Byte) : (m.write a v).read a = some v := by
  induction m with
  | nil => simp [Memory.write, Memory.read_cons]
  | cons c rest ih =>
    obtain ⟨b, w⟩ := c
    simp only [Memory.write]
    split
    · simp [Memory.read_cons]
    · split
      · simp [Memory.read_cons]
      · rw [Memory.read_cons, if_neg (by omega), ih]

/-- A write leaves every other place alone. -/
theorem Memory.read_write_other {m : Memory} {a b : Nat} {v : Byte} (h : b ≠ a) :
    (m.write a v).read b = m.read b := by
  induction m with
  | nil => rw [Memory.write, Memory.read_cons, if_neg (by omega)]
  | cons c rest ih =>
    obtain ⟨d, w⟩ := c
    simp only [Memory.write]
    split
    · rw [Memory.read_cons, if_neg (by omega)]
    · split
      · next _ h2 =>
        subst h2
        rw [Memory.read_cons, Memory.read_cons, if_neg (by omega), if_neg (by omega)]
      · simp only [Memory.read_cons, ih]

theorem Memory.read_write (m : Memory) (a b : Nat) (v : Byte) :
    (m.write a v).read b = if b = a then some v else m.read b := by
  split
  · next h => rw [h, Memory.read_write_same]
  · next h => exact Memory.read_write_other h

theorem Memory.risesFrom_mono {m : Memory} {n k : Nat} (h : Memory.risesFrom n m = true) (hk : k ≤ n) :
    Memory.risesFrom k m = true := by
  cases m with
  | nil => rfl
  | cons c rest =>
    obtain ⟨b, v⟩ := c
    simp only [Memory.risesFrom, Bool.and_eq_true, decide_eq_true_eq] at h ⊢
    exact ⟨by omega, h.2⟩

theorem Memory.risesFrom_write {m : Memory} {n a : Nat} {v : Byte} (h : Memory.risesFrom n m = true) (ha : n ≤ a) :
    Memory.risesFrom n (m.write a v) = true := by
  induction m generalizing n with
  | nil => simp [Memory.write, Memory.risesFrom, ha]
  | cons c rest ih =>
    obtain ⟨b, w⟩ := c
    simp only [Memory.risesFrom, Bool.and_eq_true, decide_eq_true_eq] at h
    simp only [Memory.write]
    split
    · next hlt =>
      simp only [Memory.risesFrom, Bool.and_eq_true, decide_eq_true_eq]
      exact ⟨ha, by omega, h.2⟩
    · split
      · next heq =>
        subst heq
        simp only [Memory.risesFrom, Bool.and_eq_true, decide_eq_true_eq]
        exact ⟨ha, h.2⟩
      · simp only [Memory.risesFrom, Bool.and_eq_true, decide_eq_true_eq]
        exact ⟨h.1, ih h.2 (by omega)⟩

/-- Every write keeps the canonical form. -/
theorem Memory.wf_write {m : Memory} (h : m.wf = true) (a : Nat) (v : Byte) : (m.write a v).wf = true :=
  Memory.risesFrom_write h (Nat.zero_le a)

@[simp] theorem Memory.wf_nil : Memory.wf [] = true := rfl

/-- A write inside the space keeps every address inside it. -/
theorem Memory.below_write {m : Memory} {n a : Nat} (h : m.below n = true) (ha : a < n) (v : Byte) :
    (m.write a v).below n = true := by
  induction m with
  | nil => simp [Memory.write, Memory.below, ha]
  | cons c rest ih =>
    obtain ⟨b, w⟩ := c
    simp only [Memory.below, List.all_cons, Bool.and_eq_true, decide_eq_true_eq] at h ih
    simp only [Memory.write]
    split
    · simp only [Memory.below, List.all_cons, Bool.and_eq_true, decide_eq_true_eq]
      exact ⟨ha, h.1, h.2⟩
    · split
      · simp only [Memory.below, List.all_cons, Bool.and_eq_true, decide_eq_true_eq]
        exact ⟨ha, h.2⟩
      · simp only [Memory.below, List.all_cons, Bool.and_eq_true, decide_eq_true_eq]
        exact ⟨h.1, ih h.2⟩

theorem Memory.ext_from {m m' : Memory} {n : Nat} (h : Memory.risesFrom n m = true) (h' : Memory.risesFrom n m' = true)
    (hr : ∀ a, m.read a = m'.read a) : m = m' := by
  induction m generalizing m' n with
  | nil =>
    cases m' with
    | nil => rfl
    | cons c rest =>
      obtain ⟨b, v⟩ := c
      have := hr b
      simp [Memory.read_cons] at this
  | cons c rest ih =>
    obtain ⟨b, v⟩ := c
    cases m' with
    | nil =>
      have := hr b
      simp [Memory.read_cons] at this
    | cons c' rest' =>
      obtain ⟨b', v'⟩ := c'
      simp only [Memory.risesFrom, Bool.and_eq_true, decide_eq_true_eq] at h h'
      have hb : b = b' := by
        have h1 := hr b
        have h2 := hr b'
        rw [Memory.read_cons, if_pos rfl, Memory.read_cons] at h1
        rw [Memory.read_cons (a := b'), Memory.read_cons (b := b'), if_pos rfl] at h2
        by_contra hne
        rw [if_neg (Ne.symm hne)] at h1
        rw [if_neg hne] at h2
        rcases Nat.lt_or_gt_of_ne hne with hlt | hlt
        · rw [Memory.read_of_risesFrom h'.2 (by omega)] at h1
          cases h1
        · rw [Memory.read_of_risesFrom h.2 (by omega)] at h2
          cases h2
      subst hb
      have hv : v = v' := by
        have h1 := hr b
        simpa [Memory.read_cons] using h1
      subst hv
      have : rest = rest' := ih h.2 h'.2 (fun a => by
        by_cases hab : b = a
        · subst hab
          rw [Memory.read_of_risesFrom h.2 (by omega), Memory.read_of_risesFrom h'.2 (by omega)]
        · have h1 := hr a
          rwa [Memory.read_cons, Memory.read_cons, if_neg hab, if_neg hab] at h1)
      rw [this]

/-- In the canonical form equal memories are equal lists. -/
theorem Memory.ext_of_wf {m m' : Memory} (h : m.wf = true) (h' : m'.wf = true) (hr : ∀ a, m.read a = m'.read a) :
    m = m' := Memory.ext_from h h' hr

end Sys2Proof.Machine
end

