-- ==== Sys2Proof/Laws/State.lean ====
section
/-! SUPPORT. One lemma for each field and each named update of the state, so that no proof unfolds a record update. -/

namespace Sys2Proof.Machine

variable (s : State)

/-! ### sampleWrite -/

@[simp] theorem State.sampleWrite_cfg (a : Nat) (v : Byte) : (s.sampleWrite a v).cfg = s.cfg := rfl
@[simp] theorem State.sampleWrite_cbEq (a : Nat) (v : Byte) : (s.sampleWrite a v).cbEq = s.cbEq := rfl
@[simp] theorem State.sampleWrite_cbRx (a : Nat) (v : Byte) : (s.sampleWrite a v).cbRx = s.cbRx := rfl
@[simp] theorem State.sampleWrite_cbTx (a : Nat) (v : Byte) : (s.sampleWrite a v).cbTx = s.cbTx := rfl
@[simp] theorem State.sampleWrite_ckAcc (a : Nat) (v : Byte) : (s.sampleWrite a v).ckAcc = s.ckAcc := rfl
@[simp] theorem State.sampleWrite_sessState (a : Nat) (v : Byte) : (s.sampleWrite a v).sessState = s.sessState := rfl
@[simp] theorem State.sampleWrite_sessPhase (a : Nat) (v : Byte) : (s.sampleWrite a v).sessPhase = s.sessPhase := rfl
@[simp] theorem State.sampleWrite_rdCk (a : Nat) (v : Byte) : (s.sampleWrite a v).rdCk = s.rdCk := rfl
@[simp] theorem State.sampleWrite_cmdBuf (a : Nat) (v : Byte) : (s.sampleWrite a v).cmdBuf = s.cmdBuf := rfl
@[simp] theorem State.sampleWrite_cmdLen (a : Nat) (v : Byte) : (s.sampleWrite a v).cmdLen = s.cmdLen := rfl
@[simp] theorem State.sampleWrite_sesResult (a : Nat) (v : Byte) : (s.sampleWrite a v).sesResult = s.sesResult := rfl
@[simp] theorem State.sampleWrite_link (a : Nat) (v : Byte) : (s.sampleWrite a v).link = s.link := rfl
@[simp] theorem State.sampleWrite_sample (a : Nat) (v : Byte) : (s.sampleWrite a v).sample = s.sample.write a v := rfl
@[simp] theorem State.sampleWrite_fault (a : Nat) (v : Byte) : (s.sampleWrite a v).fault = s.fault := rfl
@[simp] theorem State.sampleWrite_dspPhase (a : Nat) (v : Byte) : (s.sampleWrite a v).dspPhase = s.dspPhase := rfl
@[simp] theorem State.sampleWrite_dspEv (a : Nat) (v : Byte) : (s.sampleWrite a v).dspEv = s.dspEv := rfl
@[simp] theorem State.sampleWrite_pend (a : Nat) (v : Byte) : (s.sampleWrite a v).pend = s.pend := rfl
@[simp] theorem State.sampleWrite_sesExpired (a : Nat) (v : Byte) : (s.sampleWrite a v).sesExpired = s.sesExpired := rfl
@[simp] theorem State.sampleWrite_wireOut (a : Nat) (v : Byte) : (s.sampleWrite a v).wireOut = s.wireOut := rfl
@[simp] theorem State.sampleWrite_devReqs (a : Nat) (v : Byte) : (s.sampleWrite a v).devReqs = s.devReqs := rfl
@[simp] theorem State.sampleWrite_writeFwds (a : Nat) (v : Byte) : (s.sampleWrite a v).writeFwds = s.writeFwds := rfl
@[simp] theorem State.sampleWrite_responses (a : Nat) (v : Byte) : (s.sampleWrite a v).responses = s.responses := rfl
@[simp] theorem State.sampleWrite_port (a : Nat) (v : Byte) : (s.sampleWrite a v).port = s.port := rfl
@[simp] theorem State.sampleWrite_rstAsserted (a : Nat) (v : Byte) : (s.sampleWrite a v).rstAsserted = s.rstAsserted := rfl
@[simp] theorem State.sampleWrite_epoch (a : Nat) (v : Byte) : (s.sampleWrite a v).epoch = s.epoch := rfl
@[simp] theorem State.sampleWrite_inputs (a : Nat) (v : Byte) : (s.sampleWrite a v).inputs = s.inputs := rfl
@[simp] theorem State.sampleWrite_tick (a : Nat) (v : Byte) : (s.sampleWrite a v).tick = s.tick := rfl

/-! ### cmdBufWrite -/

@[simp] theorem State.cmdBufWrite_cfg (k : Nat) (v : Byte) : (s.cmdBufWrite k v).cfg = s.cfg := rfl
@[simp] theorem State.cmdBufWrite_cbEq (k : Nat) (v : Byte) : (s.cmdBufWrite k v).cbEq = s.cbEq := rfl
@[simp] theorem State.cmdBufWrite_cbRx (k : Nat) (v : Byte) : (s.cmdBufWrite k v).cbRx = s.cbRx := rfl
@[simp] theorem State.cmdBufWrite_cbTx (k : Nat) (v : Byte) : (s.cmdBufWrite k v).cbTx = s.cbTx := rfl
@[simp] theorem State.cmdBufWrite_ckAcc (k : Nat) (v : Byte) : (s.cmdBufWrite k v).ckAcc = s.ckAcc := rfl
@[simp] theorem State.cmdBufWrite_sessState (k : Nat) (v : Byte) : (s.cmdBufWrite k v).sessState = s.sessState := rfl
@[simp] theorem State.cmdBufWrite_sessPhase (k : Nat) (v : Byte) : (s.cmdBufWrite k v).sessPhase = s.sessPhase := rfl
@[simp] theorem State.cmdBufWrite_rdCk (k : Nat) (v : Byte) : (s.cmdBufWrite k v).rdCk = s.rdCk := rfl
@[simp] theorem State.cmdBufWrite_cmdBuf (k : Nat) (v : Byte) : (s.cmdBufWrite k v).cmdBuf = s.cmdBuf.write k v := rfl
@[simp] theorem State.cmdBufWrite_cmdLen (k : Nat) (v : Byte) : (s.cmdBufWrite k v).cmdLen = s.cmdLen := rfl
@[simp] theorem State.cmdBufWrite_sesResult (k : Nat) (v : Byte) : (s.cmdBufWrite k v).sesResult = s.sesResult := rfl
@[simp] theorem State.cmdBufWrite_link (k : Nat) (v : Byte) : (s.cmdBufWrite k v).link = s.link := rfl
@[simp] theorem State.cmdBufWrite_sample (k : Nat) (v : Byte) : (s.cmdBufWrite k v).sample = s.sample := rfl
@[simp] theorem State.cmdBufWrite_fault (k : Nat) (v : Byte) : (s.cmdBufWrite k v).fault = s.fault := rfl
@[simp] theorem State.cmdBufWrite_dspPhase (k : Nat) (v : Byte) : (s.cmdBufWrite k v).dspPhase = s.dspPhase := rfl
@[simp] theorem State.cmdBufWrite_dspEv (k : Nat) (v : Byte) : (s.cmdBufWrite k v).dspEv = s.dspEv := rfl
@[simp] theorem State.cmdBufWrite_pend (k : Nat) (v : Byte) : (s.cmdBufWrite k v).pend = s.pend := rfl
@[simp] theorem State.cmdBufWrite_sesExpired (k : Nat) (v : Byte) : (s.cmdBufWrite k v).sesExpired = s.sesExpired := rfl
@[simp] theorem State.cmdBufWrite_wireOut (k : Nat) (v : Byte) : (s.cmdBufWrite k v).wireOut = s.wireOut := rfl
@[simp] theorem State.cmdBufWrite_devReqs (k : Nat) (v : Byte) : (s.cmdBufWrite k v).devReqs = s.devReqs := rfl
@[simp] theorem State.cmdBufWrite_writeFwds (k : Nat) (v : Byte) : (s.cmdBufWrite k v).writeFwds = s.writeFwds := rfl
@[simp] theorem State.cmdBufWrite_responses (k : Nat) (v : Byte) : (s.cmdBufWrite k v).responses = s.responses := rfl
@[simp] theorem State.cmdBufWrite_port (k : Nat) (v : Byte) : (s.cmdBufWrite k v).port = s.port := rfl
@[simp] theorem State.cmdBufWrite_rstAsserted (k : Nat) (v : Byte) : (s.cmdBufWrite k v).rstAsserted = s.rstAsserted := rfl
@[simp] theorem State.cmdBufWrite_epoch (k : Nat) (v : Byte) : (s.cmdBufWrite k v).epoch = s.epoch := rfl
@[simp] theorem State.cmdBufWrite_inputs (k : Nat) (v : Byte) : (s.cmdBufWrite k v).inputs = s.inputs := rfl
@[simp] theorem State.cmdBufWrite_tick (k : Nat) (v : Byte) : (s.cmdBufWrite k v).tick = s.tick := rfl

/-! ### setPend -/

@[simp] theorem State.setPend_cfg (p : Port) (h : Option Held) : (s.setPend p h).cfg = s.cfg := rfl
@[simp] theorem State.setPend_cbEq (p : Port) (h : Option Held) : (s.setPend p h).cbEq = s.cbEq := rfl
@[simp] theorem State.setPend_cbRx (p : Port) (h : Option Held) : (s.setPend p h).cbRx = s.cbRx := rfl
@[simp] theorem State.setPend_cbTx (p : Port) (h : Option Held) : (s.setPend p h).cbTx = s.cbTx := rfl
@[simp] theorem State.setPend_ckAcc (p : Port) (h : Option Held) : (s.setPend p h).ckAcc = s.ckAcc := rfl
@[simp] theorem State.setPend_sessState (p : Port) (h : Option Held) : (s.setPend p h).sessState = s.sessState := rfl
@[simp] theorem State.setPend_sessPhase (p : Port) (h : Option Held) : (s.setPend p h).sessPhase = s.sessPhase := rfl
@[simp] theorem State.setPend_rdCk (p : Port) (h : Option Held) : (s.setPend p h).rdCk = s.rdCk := rfl
@[simp] theorem State.setPend_cmdBuf (p : Port) (h : Option Held) : (s.setPend p h).cmdBuf = s.cmdBuf := rfl
@[simp] theorem State.setPend_cmdLen (p : Port) (h : Option Held) : (s.setPend p h).cmdLen = s.cmdLen := rfl
@[simp] theorem State.setPend_sesResult (p : Port) (h : Option Held) : (s.setPend p h).sesResult = s.sesResult := rfl
@[simp] theorem State.setPend_link (p : Port) (h : Option Held) : (s.setPend p h).link = s.link := rfl
@[simp] theorem State.setPend_sample (p : Port) (h : Option Held) : (s.setPend p h).sample = s.sample := rfl
@[simp] theorem State.setPend_fault (p : Port) (h : Option Held) : (s.setPend p h).fault = s.fault := rfl
@[simp] theorem State.setPend_dspPhase (p : Port) (h : Option Held) : (s.setPend p h).dspPhase = s.dspPhase := rfl
@[simp] theorem State.setPend_dspEv (p : Port) (h : Option Held) : (s.setPend p h).dspEv = s.dspEv := rfl
@[simp] theorem State.setPend_pend (p : Port) (h : Option Held) : (s.setPend p h).pend = s.pend.set (portIndex p) h := rfl
@[simp] theorem State.setPend_sesExpired (p : Port) (h : Option Held) : (s.setPend p h).sesExpired = s.sesExpired := rfl
@[simp] theorem State.setPend_wireOut (p : Port) (h : Option Held) : (s.setPend p h).wireOut = s.wireOut := rfl
@[simp] theorem State.setPend_devReqs (p : Port) (h : Option Held) : (s.setPend p h).devReqs = s.devReqs := rfl
@[simp] theorem State.setPend_writeFwds (p : Port) (h : Option Held) : (s.setPend p h).writeFwds = s.writeFwds := rfl
@[simp] theorem State.setPend_responses (p : Port) (h : Option Held) : (s.setPend p h).responses = s.responses := rfl
@[simp] theorem State.setPend_port (p : Port) (h : Option Held) : (s.setPend p h).port = s.port := rfl
@[simp] theorem State.setPend_rstAsserted (p : Port) (h : Option Held) : (s.setPend p h).rstAsserted = s.rstAsserted := rfl
@[simp] theorem State.setPend_epoch (p : Port) (h : Option Held) : (s.setPend p h).epoch = s.epoch := rfl
@[simp] theorem State.setPend_inputs (p : Port) (h : Option Held) : (s.setPend p h).inputs = s.inputs := rfl
@[simp] theorem State.setPend_tick (p : Port) (h : Option Held) : (s.setPend p h).tick = s.tick := rfl

/-! ### respond -/

@[simp] theorem State.respond_cfg (st : Status) (d : Byte) : (s.respond st d).cfg = s.cfg := rfl
@[simp] theorem State.respond_cbEq (st : Status) (d : Byte) : (s.respond st d).cbEq = s.cbEq := rfl
@[simp] theorem State.respond_cbRx (st : Status) (d : Byte) : (s.respond st d).cbRx = s.cbRx := rfl
@[simp] theorem State.respond_cbTx (st : Status) (d : Byte) : (s.respond st d).cbTx = s.cbTx := rfl
@[simp] theorem State.respond_ckAcc (st : Status) (d : Byte) : (s.respond st d).ckAcc = s.ckAcc := rfl
@[simp] theorem State.respond_sessState (st : Status) (d : Byte) : (s.respond st d).sessState = s.sessState := rfl
@[simp] theorem State.respond_sessPhase (st : Status) (d : Byte) : (s.respond st d).sessPhase = s.sessPhase := rfl
@[simp] theorem State.respond_rdCk (st : Status) (d : Byte) : (s.respond st d).rdCk = s.rdCk := rfl
@[simp] theorem State.respond_cmdBuf (st : Status) (d : Byte) : (s.respond st d).cmdBuf = s.cmdBuf := rfl
@[simp] theorem State.respond_cmdLen (st : Status) (d : Byte) : (s.respond st d).cmdLen = s.cmdLen := rfl
@[simp] theorem State.respond_sesResult (st : Status) (d : Byte) : (s.respond st d).sesResult = s.sesResult := rfl
@[simp] theorem State.respond_link (st : Status) (d : Byte) : (s.respond st d).link = s.link := rfl
@[simp] theorem State.respond_sample (st : Status) (d : Byte) : (s.respond st d).sample = s.sample := rfl
@[simp] theorem State.respond_fault (st : Status) (d : Byte) : (s.respond st d).fault = s.fault := rfl
@[simp] theorem State.respond_dspPhase (st : Status) (d : Byte) : (s.respond st d).dspPhase = s.dspPhase := rfl
@[simp] theorem State.respond_dspEv (st : Status) (d : Byte) : (s.respond st d).dspEv = s.dspEv := rfl
@[simp] theorem State.respond_pend (st : Status) (d : Byte) : (s.respond st d).pend = s.pend.set (portIndex s.port) none := rfl
@[simp] theorem State.respond_sesExpired (st : Status) (d : Byte) : (s.respond st d).sesExpired = s.sesExpired := rfl
@[simp] theorem State.respond_wireOut (st : Status) (d : Byte) : (s.respond st d).wireOut = s.wireOut := rfl
@[simp] theorem State.respond_devReqs (st : Status) (d : Byte) : (s.respond st d).devReqs = s.devReqs := rfl
@[simp] theorem State.respond_writeFwds (st : Status) (d : Byte) : (s.respond st d).writeFwds = s.writeFwds := rfl
@[simp] theorem State.respond_responses (st : Status) (d : Byte) : (s.respond st d).responses = s.responses ++ [⟨s.port, responseWord st d⟩] := rfl
@[simp] theorem State.respond_port (st : Status) (d : Byte) : (s.respond st d).port = s.port := rfl
@[simp] theorem State.respond_rstAsserted (st : Status) (d : Byte) : (s.respond st d).rstAsserted = s.rstAsserted := rfl
@[simp] theorem State.respond_epoch (st : Status) (d : Byte) : (s.respond st d).epoch = s.epoch := rfl
@[simp] theorem State.respond_inputs (st : Status) (d : Byte) : (s.respond st d).inputs = s.inputs := rfl
@[simp] theorem State.respond_tick (st : Status) (d : Byte) : (s.respond st d).tick = s.tick := rfl

/-! ### hold -/

@[simp] theorem State.hold_cfg (w : CommandWord) : (s.hold w).cfg = s.cfg := rfl
@[simp] theorem State.hold_cbEq (w : CommandWord) : (s.hold w).cbEq = s.cbEq := rfl
@[simp] theorem State.hold_cbRx (w : CommandWord) : (s.hold w).cbRx = s.cbRx := rfl
@[simp] theorem State.hold_cbTx (w : CommandWord) : (s.hold w).cbTx = s.cbTx := rfl
@[simp] theorem State.hold_ckAcc (w : CommandWord) : (s.hold w).ckAcc = s.ckAcc := rfl
@[simp] theorem State.hold_sessState (w : CommandWord) : (s.hold w).sessState = s.sessState := rfl
@[simp] theorem State.hold_sessPhase (w : CommandWord) : (s.hold w).sessPhase = s.sessPhase := rfl
@[simp] theorem State.hold_rdCk (w : CommandWord) : (s.hold w).rdCk = s.rdCk := rfl
@[simp] theorem State.hold_cmdBuf (w : CommandWord) : (s.hold w).cmdBuf = s.cmdBuf := rfl
@[simp] theorem State.hold_cmdLen (w : CommandWord) : (s.hold w).cmdLen = s.cmdLen := rfl
@[simp] theorem State.hold_sesResult (w : CommandWord) : (s.hold w).sesResult = s.sesResult := rfl
@[simp] theorem State.hold_link (w : CommandWord) : (s.hold w).link = s.link := rfl
@[simp] theorem State.hold_sample (w : CommandWord) : (s.hold w).sample = s.sample := rfl
@[simp] theorem State.hold_fault (w : CommandWord) : (s.hold w).fault = s.fault := rfl
@[simp] theorem State.hold_dspPhase (w : CommandWord) : (s.hold w).dspPhase = s.dspPhase := rfl
@[simp] theorem State.hold_dspEv (w : CommandWord) : (s.hold w).dspEv = s.dspEv := rfl
@[simp] theorem State.hold_pend (w : CommandWord) : (s.hold w).pend = s.pend.set (portIndex s.port) (some ⟨w, s.portExpired⟩) := rfl
@[simp] theorem State.hold_sesExpired (w : CommandWord) : (s.hold w).sesExpired = s.sesExpired := rfl
@[simp] theorem State.hold_wireOut (w : CommandWord) : (s.hold w).wireOut = s.wireOut := rfl
@[simp] theorem State.hold_devReqs (w : CommandWord) : (s.hold w).devReqs = s.devReqs := rfl
@[simp] theorem State.hold_writeFwds (w : CommandWord) : (s.hold w).writeFwds = s.writeFwds := rfl
@[simp] theorem State.hold_responses (w : CommandWord) : (s.hold w).responses = s.responses := rfl
@[simp] theorem State.hold_port (w : CommandWord) : (s.hold w).port = s.port := rfl
@[simp] theorem State.hold_rstAsserted (w : CommandWord) : (s.hold w).rstAsserted = s.rstAsserted := rfl
@[simp] theorem State.hold_epoch (w : CommandWord) : (s.hold w).epoch = s.epoch := rfl
@[simp] theorem State.hold_inputs (w : CommandWord) : (s.hold w).inputs = s.inputs := rfl
@[simp] theorem State.hold_tick (w : CommandWord) : (s.hold w).tick = s.tick := rfl

/-! ### raiseFault -/

@[simp] theorem State.raiseFault_cfg (c : Cause) : (s.raiseFault c).cfg = s.cfg := rfl
@[simp] theorem State.raiseFault_cbEq (c : Cause) : (s.raiseFault c).cbEq = s.cbEq := rfl
@[simp] theorem State.raiseFault_cbRx (c : Cause) : (s.raiseFault c).cbRx = s.cbRx := rfl
@[simp] theorem State.raiseFault_cbTx (c : Cause) : (s.raiseFault c).cbTx = s.cbTx := rfl
@[simp] theorem State.raiseFault_ckAcc (c : Cause) : (s.raiseFault c).ckAcc = s.ckAcc := rfl
@[simp] theorem State.raiseFault_sessState (c : Cause) : (s.raiseFault c).sessState = s.sessState := rfl
@[simp] theorem State.raiseFault_sessPhase (c : Cause) : (s.raiseFault c).sessPhase = s.sessPhase := rfl
@[simp] theorem State.raiseFault_rdCk (c : Cause) : (s.raiseFault c).rdCk = s.rdCk := rfl
@[simp] theorem State.raiseFault_cmdBuf (c : Cause) : (s.raiseFault c).cmdBuf = s.cmdBuf := rfl
@[simp] theorem State.raiseFault_cmdLen (c : Cause) : (s.raiseFault c).cmdLen = s.cmdLen := rfl
@[simp] theorem State.raiseFault_sesResult (c : Cause) : (s.raiseFault c).sesResult = s.sesResult := rfl
@[simp] theorem State.raiseFault_link (c : Cause) : (s.raiseFault c).link = s.link := rfl
@[simp] theorem State.raiseFault_sample (c : Cause) : (s.raiseFault c).sample = s.sample := rfl
@[simp] theorem State.raiseFault_fault (c : Cause) : (s.raiseFault c).fault = s.fault ||| causeBit c := rfl
@[simp] theorem State.raiseFault_dspPhase (c : Cause) : (s.raiseFault c).dspPhase = s.dspPhase := rfl
@[simp] theorem State.raiseFault_dspEv (c : Cause) : (s.raiseFault c).dspEv = s.dspEv := rfl
@[simp] theorem State.raiseFault_pend (c : Cause) : (s.raiseFault c).pend = s.pend.set (portIndex s.port) none := rfl
@[simp] theorem State.raiseFault_sesExpired (c : Cause) : (s.raiseFault c).sesExpired = s.sesExpired := rfl
@[simp] theorem State.raiseFault_wireOut (c : Cause) : (s.raiseFault c).wireOut = s.wireOut := rfl
@[simp] theorem State.raiseFault_devReqs (c : Cause) : (s.raiseFault c).devReqs = s.devReqs := rfl
@[simp] theorem State.raiseFault_writeFwds (c : Cause) : (s.raiseFault c).writeFwds = s.writeFwds := rfl
@[simp] theorem State.raiseFault_responses (c : Cause) : (s.raiseFault c).responses = s.responses ++ [⟨s.port, responseWord (causeStatus c) 0x00#8⟩] := rfl
@[simp] theorem State.raiseFault_port (c : Cause) : (s.raiseFault c).port = s.port := rfl
@[simp] theorem State.raiseFault_rstAsserted (c : Cause) : (s.raiseFault c).rstAsserted = s.rstAsserted := rfl
@[simp] theorem State.raiseFault_epoch (c : Cause) : (s.raiseFault c).epoch = s.epoch := rfl
@[simp] theorem State.raiseFault_inputs (c : Cause) : (s.raiseFault c).inputs = s.inputs := rfl
@[simp] theorem State.raiseFault_tick (c : Cause) : (s.raiseFault c).tick = s.tick := rfl

/-! ### setRxEn -/

@[simp] theorem State.setRxEn_cfg (v : Bool) : (s.setRxEn v).cfg = s.cfg := rfl
@[simp] theorem State.setRxEn_cbEq (v : Bool) : (s.setRxEn v).cbEq = s.cbEq := rfl
@[simp] theorem State.setRxEn_cbRx (v : Bool) : (s.setRxEn v).cbRx = s.cbRx := rfl
@[simp] theorem State.setRxEn_cbTx (v : Bool) : (s.setRxEn v).cbTx = s.cbTx := rfl
@[simp] theorem State.setRxEn_ckAcc (v : Bool) : (s.setRxEn v).ckAcc = s.ckAcc := rfl
@[simp] theorem State.setRxEn_sessState (v : Bool) : (s.setRxEn v).sessState = s.sessState := rfl
@[simp] theorem State.setRxEn_sessPhase (v : Bool) : (s.setRxEn v).sessPhase = s.sessPhase := rfl
@[simp] theorem State.setRxEn_rdCk (v : Bool) : (s.setRxEn v).rdCk = s.rdCk := rfl
@[simp] theorem State.setRxEn_cmdBuf (v : Bool) : (s.setRxEn v).cmdBuf = s.cmdBuf := rfl
@[simp] theorem State.setRxEn_cmdLen (v : Bool) : (s.setRxEn v).cmdLen = s.cmdLen := rfl
@[simp] theorem State.setRxEn_sesResult (v : Bool) : (s.setRxEn v).sesResult = s.sesResult := rfl
@[simp] theorem State.setRxEn_link (v : Bool) : (s.setRxEn v).link = BitVec.ofBool s.baudSel ++ BitVec.ofBool v := rfl
@[simp] theorem State.setRxEn_sample (v : Bool) : (s.setRxEn v).sample = s.sample := rfl
@[simp] theorem State.setRxEn_fault (v : Bool) : (s.setRxEn v).fault = s.fault := rfl
@[simp] theorem State.setRxEn_dspPhase (v : Bool) : (s.setRxEn v).dspPhase = s.dspPhase := rfl
@[simp] theorem State.setRxEn_dspEv (v : Bool) : (s.setRxEn v).dspEv = s.dspEv := rfl
@[simp] theorem State.setRxEn_pend (v : Bool) : (s.setRxEn v).pend = s.pend := rfl
@[simp] theorem State.setRxEn_sesExpired (v : Bool) : (s.setRxEn v).sesExpired = s.sesExpired := rfl
@[simp] theorem State.setRxEn_wireOut (v : Bool) : (s.setRxEn v).wireOut = s.wireOut := rfl
@[simp] theorem State.setRxEn_devReqs (v : Bool) : (s.setRxEn v).devReqs = s.devReqs := rfl
@[simp] theorem State.setRxEn_writeFwds (v : Bool) : (s.setRxEn v).writeFwds = s.writeFwds := rfl
@[simp] theorem State.setRxEn_responses (v : Bool) : (s.setRxEn v).responses = s.responses := rfl
@[simp] theorem State.setRxEn_port (v : Bool) : (s.setRxEn v).port = s.port := rfl
@[simp] theorem State.setRxEn_rstAsserted (v : Bool) : (s.setRxEn v).rstAsserted = s.rstAsserted := rfl
@[simp] theorem State.setRxEn_epoch (v : Bool) : (s.setRxEn v).epoch = s.epoch := rfl
@[simp] theorem State.setRxEn_inputs (v : Bool) : (s.setRxEn v).inputs = s.inputs := rfl
@[simp] theorem State.setRxEn_tick (v : Bool) : (s.setRxEn v).tick = s.tick := rfl

/-! ### setBaudSel -/

@[simp] theorem State.setBaudSel_cfg (v : Bool) : (s.setBaudSel v).cfg = s.cfg := rfl
@[simp] theorem State.setBaudSel_cbEq (v : Bool) : (s.setBaudSel v).cbEq = s.cbEq := rfl
@[simp] theorem State.setBaudSel_cbRx (v : Bool) : (s.setBaudSel v).cbRx = s.cbRx := rfl
@[simp] theorem State.setBaudSel_cbTx (v : Bool) : (s.setBaudSel v).cbTx = s.cbTx := rfl
@[simp] theorem State.setBaudSel_ckAcc (v : Bool) : (s.setBaudSel v).ckAcc = s.ckAcc := rfl
@[simp] theorem State.setBaudSel_sessState (v : Bool) : (s.setBaudSel v).sessState = s.sessState := rfl
@[simp] theorem State.setBaudSel_sessPhase (v : Bool) : (s.setBaudSel v).sessPhase = s.sessPhase := rfl
@[simp] theorem State.setBaudSel_rdCk (v : Bool) : (s.setBaudSel v).rdCk = s.rdCk := rfl
@[simp] theorem State.setBaudSel_cmdBuf (v : Bool) : (s.setBaudSel v).cmdBuf = s.cmdBuf := rfl
@[simp] theorem State.setBaudSel_cmdLen (v : Bool) : (s.setBaudSel v).cmdLen = s.cmdLen := rfl
@[simp] theorem State.setBaudSel_sesResult (v : Bool) : (s.setBaudSel v).sesResult = s.sesResult := rfl
@[simp] theorem State.setBaudSel_link (v : Bool) : (s.setBaudSel v).link = BitVec.ofBool v ++ BitVec.ofBool s.rxEn := rfl
@[simp] theorem State.setBaudSel_sample (v : Bool) : (s.setBaudSel v).sample = s.sample := rfl
@[simp] theorem State.setBaudSel_fault (v : Bool) : (s.setBaudSel v).fault = s.fault := rfl
@[simp] theorem State.setBaudSel_dspPhase (v : Bool) : (s.setBaudSel v).dspPhase = s.dspPhase := rfl
@[simp] theorem State.setBaudSel_dspEv (v : Bool) : (s.setBaudSel v).dspEv = s.dspEv := rfl
@[simp] theorem State.setBaudSel_pend (v : Bool) : (s.setBaudSel v).pend = s.pend := rfl
@[simp] theorem State.setBaudSel_sesExpired (v : Bool) : (s.setBaudSel v).sesExpired = s.sesExpired := rfl
@[simp] theorem State.setBaudSel_wireOut (v : Bool) : (s.setBaudSel v).wireOut = s.wireOut := rfl
@[simp] theorem State.setBaudSel_devReqs (v : Bool) : (s.setBaudSel v).devReqs = s.devReqs := rfl
@[simp] theorem State.setBaudSel_writeFwds (v : Bool) : (s.setBaudSel v).writeFwds = s.writeFwds := rfl
@[simp] theorem State.setBaudSel_responses (v : Bool) : (s.setBaudSel v).responses = s.responses := rfl
@[simp] theorem State.setBaudSel_port (v : Bool) : (s.setBaudSel v).port = s.port := rfl
@[simp] theorem State.setBaudSel_rstAsserted (v : Bool) : (s.setBaudSel v).rstAsserted = s.rstAsserted := rfl
@[simp] theorem State.setBaudSel_epoch (v : Bool) : (s.setBaudSel v).epoch = s.epoch := rfl
@[simp] theorem State.setBaudSel_inputs (v : Bool) : (s.setBaudSel v).inputs = s.inputs := rfl
@[simp] theorem State.setBaudSel_tick (v : Bool) : (s.setBaudSel v).tick = s.tick := rfl

/-! ### linkReset -/

@[simp] theorem State.linkReset_cfg : (s.linkReset).cfg = s.cfg := rfl
@[simp] theorem State.linkReset_cbEq : (s.linkReset).cbEq = s.cbEq := rfl
@[simp] theorem State.linkReset_cbRx : (s.linkReset).cbRx = { s.cbRx with rd := 0#8, wr := 0#8 } := rfl
@[simp] theorem State.linkReset_cbTx : (s.linkReset).cbTx = { s.cbTx with rd := 0#8, wr := 0#8 } := rfl
@[simp] theorem State.linkReset_ckAcc : (s.linkReset).ckAcc = s.ckAcc := rfl
@[simp] theorem State.linkReset_sessState : (s.linkReset).sessState = s.sessState := rfl
@[simp] theorem State.linkReset_sessPhase : (s.linkReset).sessPhase = s.sessPhase := rfl
@[simp] theorem State.linkReset_rdCk : (s.linkReset).rdCk = s.rdCk := rfl
@[simp] theorem State.linkReset_cmdBuf : (s.linkReset).cmdBuf = s.cmdBuf := rfl
@[simp] theorem State.linkReset_cmdLen : (s.linkReset).cmdLen = s.cmdLen := rfl
@[simp] theorem State.linkReset_sesResult : (s.linkReset).sesResult = s.sesResult := rfl
@[simp] theorem State.linkReset_link : (s.linkReset).link = BitVec.ofBool s.baudSel ++ BitVec.ofBool false := rfl
@[simp] theorem State.linkReset_sample : (s.linkReset).sample = s.sample := rfl
@[simp] theorem State.linkReset_fault : (s.linkReset).fault = s.fault := rfl
@[simp] theorem State.linkReset_dspPhase : (s.linkReset).dspPhase = s.dspPhase := rfl
@[simp] theorem State.linkReset_dspEv : (s.linkReset).dspEv = s.dspEv := rfl
@[simp] theorem State.linkReset_pend : (s.linkReset).pend = s.pend := rfl
@[simp] theorem State.linkReset_sesExpired : (s.linkReset).sesExpired = s.sesExpired := rfl
@[simp] theorem State.linkReset_wireOut : (s.linkReset).wireOut = s.wireOut := rfl
@[simp] theorem State.linkReset_devReqs : (s.linkReset).devReqs = s.devReqs := rfl
@[simp] theorem State.linkReset_writeFwds : (s.linkReset).writeFwds = s.writeFwds := rfl
@[simp] theorem State.linkReset_responses : (s.linkReset).responses = s.responses := rfl
@[simp] theorem State.linkReset_port : (s.linkReset).port = s.port := rfl
@[simp] theorem State.linkReset_rstAsserted : (s.linkReset).rstAsserted = s.rstAsserted := rfl
@[simp] theorem State.linkReset_epoch : (s.linkReset).epoch = s.epoch := rfl
@[simp] theorem State.linkReset_inputs : (s.linkReset).inputs = s.inputs := rfl
@[simp] theorem State.linkReset_tick : (s.linkReset).tick = s.tick := rfl

/-! ### sesWait -/

@[simp] theorem State.sesWait_cfg (ph : SesPhase) : (s.sesWait ph).cfg = s.cfg := rfl
@[simp] theorem State.sesWait_cbEq (ph : SesPhase) : (s.sesWait ph).cbEq = s.cbEq := rfl
@[simp] theorem State.sesWait_cbRx (ph : SesPhase) : (s.sesWait ph).cbRx = s.cbRx := rfl
@[simp] theorem State.sesWait_cbTx (ph : SesPhase) : (s.sesWait ph).cbTx = s.cbTx := rfl
@[simp] theorem State.sesWait_ckAcc (ph : SesPhase) : (s.sesWait ph).ckAcc = s.ckAcc := rfl
@[simp] theorem State.sesWait_sessState (ph : SesPhase) : (s.sesWait ph).sessState = s.sessState := rfl
@[simp] theorem State.sesWait_sessPhase (ph : SesPhase) : (s.sesWait ph).sessPhase = ph := rfl
@[simp] theorem State.sesWait_rdCk (ph : SesPhase) : (s.sesWait ph).rdCk = s.rdCk := rfl
@[simp] theorem State.sesWait_cmdBuf (ph : SesPhase) : (s.sesWait ph).cmdBuf = s.cmdBuf := rfl
@[simp] theorem State.sesWait_cmdLen (ph : SesPhase) : (s.sesWait ph).cmdLen = s.cmdLen := rfl
@[simp] theorem State.sesWait_sesResult (ph : SesPhase) : (s.sesWait ph).sesResult = s.sesResult := rfl
@[simp] theorem State.sesWait_link (ph : SesPhase) : (s.sesWait ph).link = s.link := rfl
@[simp] theorem State.sesWait_sample (ph : SesPhase) : (s.sesWait ph).sample = s.sample := rfl
@[simp] theorem State.sesWait_fault (ph : SesPhase) : (s.sesWait ph).fault = s.fault := rfl
@[simp] theorem State.sesWait_dspPhase (ph : SesPhase) : (s.sesWait ph).dspPhase = s.dspPhase := rfl
@[simp] theorem State.sesWait_dspEv (ph : SesPhase) : (s.sesWait ph).dspEv = s.dspEv := rfl
@[simp] theorem State.sesWait_pend (ph : SesPhase) : (s.sesWait ph).pend = s.pend := rfl
@[simp] theorem State.sesWait_sesExpired (ph : SesPhase) : (s.sesWait ph).sesExpired = false := rfl
@[simp] theorem State.sesWait_wireOut (ph : SesPhase) : (s.sesWait ph).wireOut = s.wireOut := rfl
@[simp] theorem State.sesWait_devReqs (ph : SesPhase) : (s.sesWait ph).devReqs = s.devReqs := rfl
@[simp] theorem State.sesWait_writeFwds (ph : SesPhase) : (s.sesWait ph).writeFwds = s.writeFwds := rfl
@[simp] theorem State.sesWait_responses (ph : SesPhase) : (s.sesWait ph).responses = s.responses := rfl
@[simp] theorem State.sesWait_port (ph : SesPhase) : (s.sesWait ph).port = s.port := rfl
@[simp] theorem State.sesWait_rstAsserted (ph : SesPhase) : (s.sesWait ph).rstAsserted = s.rstAsserted := rfl
@[simp] theorem State.sesWait_epoch (ph : SesPhase) : (s.sesWait ph).epoch = s.epoch := rfl
@[simp] theorem State.sesWait_inputs (ph : SesPhase) : (s.sesWait ph).inputs = s.inputs := rfl
@[simp] theorem State.sesWait_tick (ph : SesPhase) : (s.sesWait ph).tick = s.tick := rfl

/-! ### setResult -/

@[simp] theorem State.setResult_cfg (k : ErrKind) : (s.setResult k).cfg = s.cfg := rfl
@[simp] theorem State.setResult_cbEq (k : ErrKind) : (s.setResult k).cbEq = s.cbEq := rfl
@[simp] theorem State.setResult_cbRx (k : ErrKind) : (s.setResult k).cbRx = s.cbRx := rfl
@[simp] theorem State.setResult_cbTx (k : ErrKind) : (s.setResult k).cbTx = s.cbTx := rfl
@[simp] theorem State.setResult_ckAcc (k : ErrKind) : (s.setResult k).ckAcc = s.ckAcc := rfl
@[simp] theorem State.setResult_sessState (k : ErrKind) : (s.setResult k).sessState = s.sessState := rfl
@[simp] theorem State.setResult_sessPhase (k : ErrKind) : (s.setResult k).sessPhase = s.sessPhase := rfl
@[simp] theorem State.setResult_rdCk (k : ErrKind) : (s.setResult k).rdCk = s.rdCk := rfl
@[simp] theorem State.setResult_cmdBuf (k : ErrKind) : (s.setResult k).cmdBuf = s.cmdBuf := rfl
@[simp] theorem State.setResult_cmdLen (k : ErrKind) : (s.setResult k).cmdLen = s.cmdLen := rfl
@[simp] theorem State.setResult_sesResult (k : ErrKind) : (s.setResult k).sesResult = errCode k := rfl
@[simp] theorem State.setResult_link (k : ErrKind) : (s.setResult k).link = s.link := rfl
@[simp] theorem State.setResult_sample (k : ErrKind) : (s.setResult k).sample = s.sample := rfl
@[simp] theorem State.setResult_fault (k : ErrKind) : (s.setResult k).fault = s.fault := rfl
@[simp] theorem State.setResult_dspPhase (k : ErrKind) : (s.setResult k).dspPhase = s.dspPhase := rfl
@[simp] theorem State.setResult_dspEv (k : ErrKind) : (s.setResult k).dspEv = s.dspEv := rfl
@[simp] theorem State.setResult_pend (k : ErrKind) : (s.setResult k).pend = s.pend := rfl
@[simp] theorem State.setResult_sesExpired (k : ErrKind) : (s.setResult k).sesExpired = s.sesExpired := rfl
@[simp] theorem State.setResult_wireOut (k : ErrKind) : (s.setResult k).wireOut = s.wireOut := rfl
@[simp] theorem State.setResult_devReqs (k : ErrKind) : (s.setResult k).devReqs = s.devReqs := rfl
@[simp] theorem State.setResult_writeFwds (k : ErrKind) : (s.setResult k).writeFwds = s.writeFwds := rfl
@[simp] theorem State.setResult_responses (k : ErrKind) : (s.setResult k).responses = s.responses := rfl
@[simp] theorem State.setResult_port (k : ErrKind) : (s.setResult k).port = s.port := rfl
@[simp] theorem State.setResult_rstAsserted (k : ErrKind) : (s.setResult k).rstAsserted = s.rstAsserted := rfl
@[simp] theorem State.setResult_epoch (k : ErrKind) : (s.setResult k).epoch = s.epoch := rfl
@[simp] theorem State.setResult_inputs (k : ErrKind) : (s.setResult k).inputs = s.inputs := rfl
@[simp] theorem State.setResult_tick (k : ErrKind) : (s.setResult k).tick = s.tick := rfl

/-! ### presentRequest -/

@[simp] theorem State.presentRequest_cfg (k : BitVec 3) (n : BitVec 5) : (s.presentRequest k n).cfg = s.cfg := rfl
@[simp] theorem State.presentRequest_cbEq (k : BitVec 3) (n : BitVec 5) : (s.presentRequest k n).cbEq = s.cbEq := rfl
@[simp] theorem State.presentRequest_cbRx (k : BitVec 3) (n : BitVec 5) : (s.presentRequest k n).cbRx = s.cbRx := rfl
@[simp] theorem State.presentRequest_cbTx (k : BitVec 3) (n : BitVec 5) : (s.presentRequest k n).cbTx = s.cbTx := rfl
@[simp] theorem State.presentRequest_ckAcc (k : BitVec 3) (n : BitVec 5) : (s.presentRequest k n).ckAcc = s.ckAcc := rfl
@[simp] theorem State.presentRequest_sessState (k : BitVec 3) (n : BitVec 5) : (s.presentRequest k n).sessState = s.sessState := rfl
@[simp] theorem State.presentRequest_sessPhase (k : BitVec 3) (n : BitVec 5) : (s.presentRequest k n).sessPhase = s.sessPhase := rfl
@[simp] theorem State.presentRequest_rdCk (k : BitVec 3) (n : BitVec 5) : (s.presentRequest k n).rdCk = s.rdCk := rfl
@[simp] theorem State.presentRequest_cmdBuf (k : BitVec 3) (n : BitVec 5) : (s.presentRequest k n).cmdBuf = s.cmdBuf := rfl
@[simp] theorem State.presentRequest_cmdLen (k : BitVec 3) (n : BitVec 5) : (s.presentRequest k n).cmdLen = s.cmdLen := rfl
@[simp] theorem State.presentRequest_sesResult (k : BitVec 3) (n : BitVec 5) : (s.presentRequest k n).sesResult = s.sesResult := rfl
@[simp] theorem State.presentRequest_link (k : BitVec 3) (n : BitVec 5) : (s.presentRequest k n).link = s.link := rfl
@[simp] theorem State.presentRequest_sample (k : BitVec 3) (n : BitVec 5) : (s.presentRequest k n).sample = s.sample := rfl
@[simp] theorem State.presentRequest_fault (k : BitVec 3) (n : BitVec 5) : (s.presentRequest k n).fault = s.fault := rfl
@[simp] theorem State.presentRequest_dspPhase (k : BitVec 3) (n : BitVec 5) : (s.presentRequest k n).dspPhase = .waitAck := rfl
@[simp] theorem State.presentRequest_dspEv (k : BitVec 3) (n : BitVec 5) : (s.presentRequest k n).dspEv = mkEvent k n := rfl
@[simp] theorem State.presentRequest_pend (k : BitVec 3) (n : BitVec 5) : (s.presentRequest k n).pend = s.pend := rfl
@[simp] theorem State.presentRequest_sesExpired (k : BitVec 3) (n : BitVec 5) : (s.presentRequest k n).sesExpired = s.sesExpired := rfl
@[simp] theorem State.presentRequest_wireOut (k : BitVec 3) (n : BitVec 5) : (s.presentRequest k n).wireOut = s.wireOut := rfl
@[simp] theorem State.presentRequest_devReqs (k : BitVec 3) (n : BitVec 5) : (s.presentRequest k n).devReqs = s.devReqs ++ [(k, n)] := rfl
@[simp] theorem State.presentRequest_writeFwds (k : BitVec 3) (n : BitVec 5) : (s.presentRequest k n).writeFwds = s.writeFwds := rfl
@[simp] theorem State.presentRequest_responses (k : BitVec 3) (n : BitVec 5) : (s.presentRequest k n).responses = s.responses := rfl
@[simp] theorem State.presentRequest_port (k : BitVec 3) (n : BitVec 5) : (s.presentRequest k n).port = s.port := rfl
@[simp] theorem State.presentRequest_rstAsserted (k : BitVec 3) (n : BitVec 5) : (s.presentRequest k n).rstAsserted = s.rstAsserted := rfl
@[simp] theorem State.presentRequest_epoch (k : BitVec 3) (n : BitVec 5) : (s.presentRequest k n).epoch = s.epoch := rfl
@[simp] theorem State.presentRequest_inputs (k : BitVec 3) (n : BitVec 5) : (s.presentRequest k n).inputs = s.inputs := rfl
@[simp] theorem State.presentRequest_tick (k : BitVec 3) (n : BitVec 5) : (s.presentRequest k n).tick = s.tick := rfl

/-! ### setCbc -/

@[simp] theorem State.setCbc_cfg (i : Inst) (c : Cbc) : (s.setCbc i c).cfg = s.cfg := by cases i <;> rfl
@[simp] theorem State.setCbc_ckAcc (i : Inst) (c : Cbc) : (s.setCbc i c).ckAcc = s.ckAcc := by cases i <;> rfl
@[simp] theorem State.setCbc_sessState (i : Inst) (c : Cbc) : (s.setCbc i c).sessState = s.sessState := by cases i <;> rfl
@[simp] theorem State.setCbc_sessPhase (i : Inst) (c : Cbc) : (s.setCbc i c).sessPhase = s.sessPhase := by cases i <;> rfl
@[simp] theorem State.setCbc_rdCk (i : Inst) (c : Cbc) : (s.setCbc i c).rdCk = s.rdCk := by cases i <;> rfl
@[simp] theorem State.setCbc_cmdBuf (i : Inst) (c : Cbc) : (s.setCbc i c).cmdBuf = s.cmdBuf := by cases i <;> rfl
@[simp] theorem State.setCbc_cmdLen (i : Inst) (c : Cbc) : (s.setCbc i c).cmdLen = s.cmdLen := by cases i <;> rfl
@[simp] theorem State.setCbc_sesResult (i : Inst) (c : Cbc) : (s.setCbc i c).sesResult = s.sesResult := by cases i <;> rfl
@[simp] theorem State.setCbc_link (i : Inst) (c : Cbc) : (s.setCbc i c).link = s.link := by cases i <;> rfl
@[simp] theorem State.setCbc_sample (i : Inst) (c : Cbc) : (s.setCbc i c).sample = s.sample := by cases i <;> rfl
@[simp] theorem State.setCbc_fault (i : Inst) (c : Cbc) : (s.setCbc i c).fault = s.fault := by cases i <;> rfl
@[simp] theorem State.setCbc_dspPhase (i : Inst) (c : Cbc) : (s.setCbc i c).dspPhase = s.dspPhase := by cases i <;> rfl
@[simp] theorem State.setCbc_dspEv (i : Inst) (c : Cbc) : (s.setCbc i c).dspEv = s.dspEv := by cases i <;> rfl
@[simp] theorem State.setCbc_pend (i : Inst) (c : Cbc) : (s.setCbc i c).pend = s.pend := by cases i <;> rfl
@[simp] theorem State.setCbc_sesExpired (i : Inst) (c : Cbc) : (s.setCbc i c).sesExpired = s.sesExpired := by cases i <;> rfl
@[simp] theorem State.setCbc_wireOut (i : Inst) (c : Cbc) : (s.setCbc i c).wireOut = s.wireOut := by cases i <;> rfl
@[simp] theorem State.setCbc_devReqs (i : Inst) (c : Cbc) : (s.setCbc i c).devReqs = s.devReqs := by cases i <;> rfl
@[simp] theorem State.setCbc_writeFwds (i : Inst) (c : Cbc) : (s.setCbc i c).writeFwds = s.writeFwds := by cases i <;> rfl
@[simp] theorem State.setCbc_responses (i : Inst) (c : Cbc) : (s.setCbc i c).responses = s.responses := by cases i <;> rfl
@[simp] theorem State.setCbc_port (i : Inst) (c : Cbc) : (s.setCbc i c).port = s.port := by cases i <;> rfl
@[simp] theorem State.setCbc_rstAsserted (i : Inst) (c : Cbc) : (s.setCbc i c).rstAsserted = s.rstAsserted := by cases i <;> rfl
@[simp] theorem State.setCbc_epoch (i : Inst) (c : Cbc) : (s.setCbc i c).epoch = s.epoch := by cases i <;> rfl
@[simp] theorem State.setCbc_inputs (i : Inst) (c : Cbc) : (s.setCbc i c).inputs = s.inputs := by cases i <;> rfl
@[simp] theorem State.setCbc_tick (i : Inst) (c : Cbc) : (s.setCbc i c).tick = s.tick := by cases i <;> rfl

@[simp] theorem State.setCbc_cbc (i j : Inst) (c : Cbc) :
    (s.setCbc i c).cbc j = if j = i then c else s.cbc j := by cases i <;> cases j <;> rfl

@[simp] theorem State.setCbc_self (i : Inst) : s.setCbc i (s.cbc i) = s := by cases i <;> rfl

/-! ### Instances of an updated state -/

@[simp] theorem State.sampleWrite_cbc (a : Nat) (v : Byte) (i : Inst) : (s.sampleWrite a v).cbc i = s.cbc i := by cases i <;> rfl
@[simp] theorem State.cmdBufWrite_cbc (k : Nat) (v : Byte) (i : Inst) : (s.cmdBufWrite k v).cbc i = s.cbc i := by cases i <;> rfl
@[simp] theorem State.setPend_cbc (p : Port) (h : Option Held) (i : Inst) : (s.setPend p h).cbc i = s.cbc i := by cases i <;> rfl
@[simp] theorem State.respond_cbc (st : Status) (d : Byte) (i : Inst) : (s.respond st d).cbc i = s.cbc i := by cases i <;> rfl
@[simp] theorem State.hold_cbc (w : CommandWord) (i : Inst) : (s.hold w).cbc i = s.cbc i := by cases i <;> rfl
@[simp] theorem State.raiseFault_cbc (c : Cause) (i : Inst) : (s.raiseFault c).cbc i = s.cbc i := by cases i <;> rfl
@[simp] theorem State.setRxEn_cbc (v : Bool) (i : Inst) : (s.setRxEn v).cbc i = s.cbc i := by cases i <;> rfl
@[simp] theorem State.setBaudSel_cbc (v : Bool) (i : Inst) : (s.setBaudSel v).cbc i = s.cbc i := by cases i <;> rfl
@[simp] theorem State.linkReset_cbc (i : Inst) :
    s.linkReset.cbc i = if i = .eq then s.cbc i else { s.cbc i with rd := 0#8, wr := 0#8 } := by cases i <;> rfl
@[simp] theorem State.sesWait_cbc (ph : SesPhase) (i : Inst) : (s.sesWait ph).cbc i = s.cbc i := by cases i <;> rfl
@[simp] theorem State.setResult_cbc (k : ErrKind) (i : Inst) : (s.setResult k).cbc i = s.cbc i := by cases i <;> rfl
@[simp] theorem State.presentRequest_cbc (k : BitVec 3) (n : BitVec 5) (i : Inst) : (s.presentRequest k n).cbc i = s.cbc i := by cases i <;> rfl

end Sys2Proof.Machine
end

