-- ==== Sys2Proof/Laws/Ops.lean ====
section
/-! SUPPORT. For each shared operation, what it can do, said once: provers cite these instead of unfolding. -/

namespace Sys2Proof.Machine

/-! ### Configuration -/

theorem Config.cap_mem {c : Config} (h : c.valid = true) (i : Inst) : c.cap i ∈ Config.powersOfTwo := by
  simp only [Config.valid, Bool.and_eq_true, List.contains_iff_mem] at h
  obtain ⟨⟨⟨⟨⟨⟨⟨⟨⟨h1, h2⟩, h3⟩, _⟩, _⟩, _⟩, _⟩, _⟩, _⟩, _⟩ := h
  cases i <;> assumption

theorem Config.cap_pos {c : Config} (h : c.valid = true) (i : Inst) : 1 ≤ c.cap i := by
  have := Config.cap_mem h i
  simp only [Config.powersOfTwo, List.mem_cons, List.not_mem_nil, or_false] at this
  omega

theorem Config.cap_le {c : Config} (h : c.valid = true) (i : Inst) : c.cap i ≤ 128 := by
  have := Config.cap_mem h i
  simp only [Config.powersOfTwo, List.mem_cons, List.not_mem_nil, or_false] at this
  omega

theorem Config.cap_dvd {c : Config} (h : c.valid = true) (i : Inst) : c.cap i ∣ 256 := by
  have := Config.cap_mem h i
  simp only [Config.powersOfTwo, List.mem_cons, List.not_mem_nil, or_false] at this
  rcases this with h | h | h | h | h | h | h | h <;> rw [h] <;> decide

theorem Config.desc_pos {c : Config} (h : c.valid = true) : 1 ≤ c.desc.length := by
  simp only [Config.valid, Bool.and_eq_true] at h
  have h1 := h.1.2
  rcases hd : c.desc with _ | ⟨x, l⟩
  · rw [hd] at h1; simp at h1
  · simp

/-! ### Slots and sizes -/

/-- The slot of a count is the count modulo the capacity (R61, R128). -/
theorem slotOf_eq {cap : Nat} (h : cap ∈ Config.powersOfTwo) (n : Count) : slotOf cap n = n.toNat % cap := by
  simp only [Config.powersOfTwo, List.mem_cons, List.not_mem_nil, or_false] at h
  rcases h with h | h | h | h | h | h | h | h <;> subst h <;> revert n <;> decide

/-- Full means that the size has reached the capacity (R123). -/
theorem isFull_iff {cap : Nat} (h : cap ∈ Config.powersOfTwo) (c : Cbc) :
    c.isFull cap = true ↔ cap ≤ c.size.toNat := by
  simp only [Cbc.isFull]
  generalize c.size = n
  simp only [Config.powersOfTwo, List.mem_cons, List.not_mem_nil, or_false] at h
  rcases h with h | h | h | h | h | h | h | h <;> subst h <;> revert n <;> decide

theorem isFull_false_iff {cap : Nat} (h : cap ∈ Config.powersOfTwo) (c : Cbc) :
    c.isFull cap = false ↔ c.size.toNat < cap := by
  rw [← Bool.not_eq_true, isFull_iff h]; omega

theorem slotOf_lt {cap : Nat} (h : cap ∈ Config.powersOfTwo) (n : Count) : slotOf cap n < cap := by
  rw [slotOf_eq h]
  apply Nat.mod_lt
  simp only [Config.powersOfTwo, List.mem_cons, List.not_mem_nil, or_false] at h
  omega

/-- Two slots of one buffer less than its capacity apart are different. -/
theorem slotOf_ne {cap : Nat} (h : cap ∈ Config.powersOfTwo) (n : Count) {j k : Nat} (hjk : j < k) (hk : k < j + cap) :
    slotOf cap (n + BitVec.ofNat 8 j) ≠ slotOf cap (n + BitVec.ofNat 8 k) := by
  rw [slotOf_eq h, slotOf_eq h]
  simp only [BitVec.toNat_add, BitVec.toNat_ofNat]
  simp only [Config.powersOfTwo, List.mem_cons, List.not_mem_nil, or_false] at h
  rcases h with h | h | h | h | h | h | h | h <;> subst h <;> omega

theorem isEmpty_iff (c : Cbc) : c.isEmpty = true ↔ c.size = 0#8 := by
  simp only [Cbc.isEmpty, Cbc.size, beq_iff_eq]
  constructor
  · intro h; rw [h]; simp
  · intro h
    have := congrArg (· + c.rd) h
    simpa using this

/-! ### Push and pop -/

/-- What a push does: where there is room it writes the slot of the write count and advances it; else there is no state
after it (R124). -/
theorem cbPush_eq (s : State) (i : Inst) (v : Byte) :
    s.cbPush i v = if s.cbFull i = true then none else
      some (s.setCbc i { s.cbc i with
        mem := (s.cbc i).mem.write (slotOf (s.cfg.cap i) (s.cbc i).wr) v, wr := (s.cbc i).wr + 1#8 }) := rfl

/-- What a pop does (R125). -/
theorem cbPop_eq (s : State) (i : Inst) :
    s.cbPop i = if s.cbEmpty i = true then none else
      some (s.readByte (.cbMem i) (slotOf (s.cfg.cap i) (s.cbc i).rd),
        s.setCbc i { s.cbc i with rd := (s.cbc i).rd + 1#8 }) := rfl

theorem cbPush_isSome (s : State) (i : Inst) (v : Byte) (h : s.cbFull i = false) : (s.cbPush i v).isSome = true := by
  rw [cbPush_eq, h]; rfl

theorem cbPop_isSome (s : State) (i : Inst) (h : s.cbEmpty i = false) : (s.cbPop i).isSome = true := by
  rw [cbPop_eq, h]; rfl

/-- The cases of `get_byte` (R242): a byte where RX has one, else a timeout where the wait has expired, else the wait. -/
theorem getByte_cases (s : State) :
    (s.cbEmpty .rx = false ∧ ∃ v t, s.cbPop .rx = some (v, t) ∧ s.getByte = .byte v t) ∨
    (s.cbEmpty .rx = true ∧ s.sesExpired = true ∧ s.getByte = .timeout) ∨
    (s.cbEmpty .rx = true ∧ s.sesExpired = false ∧ s.getByte = .held) := by
  cases he : s.cbEmpty .rx
  · refine .inl ⟨rfl, ?_⟩
    have h := cbPop_eq s .rx
    rw [he] at h
    exact ⟨_, _, h, by simp [State.getByte, he, h]⟩
  · cases hx : s.sesExpired
    · exact .inr (.inr ⟨rfl, rfl, by simp [State.getByte, he, hx]⟩)
    · exact .inr (.inl ⟨rfl, rfl, by simp [State.getByte, he, hx]⟩)

/-- The cases of `session_push` (R246). -/
theorem sessionPush_cases (s : State) (e : Byte) :
    (s.cbFull .eq = false ∧ ∃ t, s.cbPush .eq e = some t ∧ s.sessionPush e = .done t) ∨
    (s.cbFull .eq = true ∧ s.sesExpired = true ∧ s.sessionPush e = .timeout) ∨
    (s.cbFull .eq = true ∧ s.sesExpired = false ∧ s.sessionPush e = .held) := by
  cases he : s.cbFull .eq
  · refine .inl ⟨rfl, ?_⟩
    have h := cbPush_eq s .eq e
    rw [he] at h
    exact ⟨_, h, by simp [State.sessionPush, he, h]⟩
  · cases hx : s.sesExpired
    · exact .inr (.inr ⟨rfl, rfl, by simp [State.sessionPush, he, hx]⟩)
    · exact .inr (.inl ⟨rfl, rfl, by simp [State.sessionPush, he, hx]⟩)

/-- The cases of `tx_put` (R244). -/
theorem txPut_cases (s : State) (b : Byte) :
    (s.cbFull .tx = false ∧ ∃ t, s.cbPush .tx b = some t ∧ s.txPut b = .done t) ∨
    (s.cbFull .tx = true ∧ s.txPut b = .held) := by
  cases he : s.cbFull .tx
  · refine .inl ⟨rfl, ?_⟩
    have h := cbPush_eq s .tx b
    rw [he] at h
    exact ⟨_, h, by simp [State.txPut, he, h]⟩
  · exact .inr ⟨rfl, by simp [State.txPut, he]⟩

/-! ### Reading one byte -/

/-- A byte read depends on its space and the draw alone. -/
theorem readByte_congr {s t : State} {sp : Space} {a : Nat} (hm : (t.mem sp).read a = (s.mem sp).read a)
    (he : t.epoch = s.epoch) : t.readByte sp a = s.readByte sp a := by
  simp only [State.readByte, hm, he]

theorem readByte_of_read {s : State} {sp : Space} {a : Nat} {v : Byte} (h : (s.mem sp).read a = some v) :
    s.readByte sp a = v := by simp only [State.readByte, h]

/-- A byte of a space after a write to the sample buffer. -/
theorem readByte_sampleWrite (s : State) (a : Nat) (v : Byte) (sp : Space) (b : Nat) :
    (s.sampleWrite a v).readByte sp b = if sp = .sample ∧ b = a then v else s.readByte sp b := by
  cases sp with
  | cbMem i => simp [State.readByte, State.mem]
  | cmdBuf => simp [State.readByte, State.mem]
  | sample =>
    simp only [State.readByte, State.mem, State.sampleWrite_sample, State.sampleWrite_epoch, Memory.read_write]
    by_cases h : b = a <;> simp [h]

/-- A byte of a space after a write to the command buffer. -/
theorem readByte_cmdBufWrite (s : State) (k : Nat) (v : Byte) (sp : Space) (b : Nat) :
    (s.cmdBufWrite k v).readByte sp b = if sp = .cmdBuf ∧ b = k then v else s.readByte sp b := by
  cases sp with
  | cbMem i => simp [State.readByte, State.mem]
  | sample => simp [State.readByte, State.mem]
  | cmdBuf =>
    simp only [State.readByte, State.mem, State.cmdBufWrite_cmdBuf, State.cmdBufWrite_epoch, Memory.read_write]
    by_cases h : b = k <;> simp [h]

/-- A byte of a space after a push: the slot has the byte, every other byte is as before (R124, R23). -/
theorem readByte_cbPush {s t : State} {i : Inst} {v : Byte} (h : s.cbPush i v = some t) (sp : Space) (a : Nat) :
    t.readByte sp a =
      if sp = .cbMem i ∧ a = slotOf (s.cfg.cap i) (s.cbc i).wr then v else s.readByte sp a := by
  rw [cbPush_eq] at h
  split at h
  · cases h
  · cases h
    cases sp with
    | cmdBuf => simp [State.readByte, State.mem]
    | sample => simp [State.readByte, State.mem]
    | cbMem j =>
      simp only [State.readByte, State.mem, State.setCbc_cbc, State.setCbc_epoch]
      by_cases hj : j = i
      · subst hj
        simp only [if_true, Memory.read_write]
        by_cases ha : a = slotOf (s.cfg.cap j) (s.cbc j).wr <;> simp [ha]
      · simp [hj]

/-- A pop leaves every byte of every space alone (R125). -/
theorem readByte_cbPop {s t : State} {i : Inst} {v : Byte} (h : s.cbPop i = some (v, t)) (sp : Space) (a : Nat) :
    t.readByte sp a = s.readByte sp a := by
  rw [cbPop_eq] at h
  split at h
  · cases h
  · cases h
    apply readByte_congr
    · cases sp with
      | cmdBuf => simp [State.mem]
      | sample => simp [State.mem]
      | cbMem j =>
        simp only [State.mem, State.setCbc_cbc]
        by_cases hj : j = i
        · subst hj; simp
        · simp [hj]
    · simp

/-! ### Ports -/

theorem portIndex_injective {p q : Port} (h : portIndex p = portIndex q) : p = q := by
  have hv : (portIndex p).val = (portIndex q).val := congrArg Fin.val h
  have h0 : (portIndex .rxi).val = 0 := rfl
  have h1 : (portIndex .txi).val = 1 := rfl
  have h2 : (portIndex .dev).val = 2 := rfl
  have h3 : ∀ k, (portIndex (.pin k)).val = k.val + 3 := fun _ => rfl
  cases p <;> cases q <;> first
    | rfl
    | (simp only [h0, h1, h2, h3] at hv; omega)
    | (simp only [h3] at hv; exact congrArg Port.pin (Fin.ext (by omega)))

theorem pendOf_setPend (s : State) (p q : Port) (h : Option Held) :
    (s.setPend p h).pendOf q = if q = p then h else s.pendOf q := by
  simp only [State.pendOf, State.setPend_pend]
  by_cases hq : q = p
  · subst hq; simp
  · rw [if_neg hq]
    have : portIndex q ≠ portIndex p := fun e => hq (portIndex_injective e)
    simp only [Fin.getElem_fin]
    rw [Vector.getElem_set]
    rw [if_neg]
    intro e
    exact this (Fin.ext e.symm)

@[simp] theorem pendOf_respond (s : State) (st : Status) (d : Byte) (q : Port) :
    (s.respond st d).pendOf q = if q = s.port then none else s.pendOf q := pendOf_setPend s s.port q none

@[simp] theorem pendOf_hold (s : State) (w : CommandWord) (q : Port) :
    (s.hold w).pendOf q = if q = s.port then some ⟨w, s.portExpired⟩ else s.pendOf q :=
  pendOf_setPend s s.port q _

@[simp] theorem pendOf_raiseFault (s : State) (c : Cause) (q : Port) :
    (s.raiseFault c).pendOf q = if q = s.port then none else s.pendOf q :=
  pendOf_setPend { s with fault := s.fault ||| causeBit c } s.port q none

end Sys2Proof.Machine
end

