-- ==== Sys2Proof/Laws/Inversion.lean ====
section
/-! SUPPORT. What a transition can do, said once. A port operation has one of nine effects; every proof about all
operations is a case analysis over `PortEffect`, `SesEffect` or `DspEffect`, not over the instructions. -/

namespace Sys2Proof.Machine

/-! ### Pushing several bytes -/

theorem size_after_push {s t : State} {i : Inst} {v : Byte} (h : s.cbPush i v = some t) (j : Inst) :
    t.cbSize j = if j = i then s.cbSize i + 1#8 else s.cbSize j := by
  rw [cbPush_eq] at h
  split at h
  · cases h
  · cases h
    by_cases hj : j = i
    · subst hj
      simp only [State.cbSize, State.setCbc_cbc, if_true, Cbc.size]
      generalize (s.cbc j).wr = a
      generalize (s.cbc j).rd = b
      revert a b; intro a b
      rw [BitVec.sub_eq_add_neg, BitVec.sub_eq_add_neg, BitVec.add_assoc, BitVec.add_comm 1#8, BitVec.add_assoc]
    · simp [State.cbSize, hj]

theorem cfg_of_cbPush {s t : State} {i : Inst} {v : Byte} (h : s.cbPush i v = some t) : t.cfg = s.cfg := by
  rw [cbPush_eq] at h
  split at h
  · cases h
  · cases h; simp

/-- With room for all of them, all the bytes are pushed (R262). -/
theorem cbPushAll_isSome {s : State} {i : Inst} {vs : List Byte} (hv : s.cfg.valid = true)
    (h : (s.cbSize i).toNat + vs.length ≤ s.cfg.cap i) : ∃ t, s.cbPushAll i vs = some t := by
  induction vs generalizing s with
  | nil => exact ⟨s, rfl⟩
  | cons v rest ih =>
    simp only [List.length_cons] at h
    have hle := Config.cap_le hv i
    have hf : s.cbFull i = false := (isFull_false_iff (Config.cap_mem hv i) _).mpr (by
      show (s.cbSize i).toNat < _; omega)
    obtain ⟨u, hu⟩ := Option.isSome_iff_exists.mp (cbPush_isSome s i v hf)
    have hc := cfg_of_cbPush hu
    have hs := size_after_push hu i
    rw [if_pos rfl] at hs
    have hn : (u.cbSize i).toNat = (s.cbSize i).toNat + 1 := by
      rw [hs, BitVec.toNat_add]
      simp only [BitVec.toNat_ofNat]
      omega
    obtain ⟨t, ht⟩ := ih (s := u) (by rw [hc]; exact hv) (by rw [hc, hn]; omega)
    exact ⟨t, by rw [State.cbPushAll, hu]; exact ht⟩

/-! ### Ports -/

/-- What a port operation can do: answer; fault (R310); hold (R10); drop and answer FULL; load `CK_ACC`; push to EQ, or to
RX while receive is enabled; pop TX; write one byte of SAMPLE; or send a message. `i` is the operation. -/
inductive PortEffect (i : Instr) (s : State) : State → Prop where
  | answer (st : Status) (d : Byte) : PortEffect i s (s.respond st d)
  | fault (c : Cause) : PortEffect i s (s.raiseFault c)
  | hold (w : CommandWord) (hi : decodeCommand w = i) (h : MayHold s.cfg i) : PortEffect i s (s.hold w)
  | drop (c : Inst) (hc : c ≠ .tx) : PortEffect i s ((s.countDrop c).respond .full 0x00#8)
  | load (v : Byte) : PortEffect i s ({ s with ckAcc := v }.respond .ok v)
  | push (c : Inst) (v : Byte) (u : State) (hc : c = .eq ∨ c = .rx ∧ s.rxEn = true) (h : s.cbPush c v = some u) :
    PortEffect i s (u.respond .ok 0x00#8)
  | pop (v : Byte) (u : State) (h : s.cbPop .tx = some (v, u)) :
    PortEffect i s ({ u with wireOut := u.wireOut ++ [v] }.respond .ok v)
  | write (a : Nat) (v : Byte) (h : a < s.cfg.sampleSize) : PortEffect i s ((s.sampleWrite a v).respond .ok 0x00#8)
  | send (m sel : BitVec 3) (a n : Nat) (u : State) (hs : s.sessState = stWaitingForCommand)
    (hr : a + n + 2 ≤ s.cfg.sampleSize) (hroom : s.txRoom n = true)
    (h : (s.frameSample m sel a n).cbPushAll .tx ((s.frameSample m sel a n).readBytes .sample a (n + 2)) = some u) :
    PortEffect i s (u.respond .ok 0x00#8)

theorem illegalOp_effect {i : Instr} {s t : State} (h : illegalOp s = .next t) : PortEffect i s t := by
  cases h; exact .fault _

theorem makeOp_effect {i : Instr} {c : BitVec 2} {a b : Byte} {s t : State} (h : makeOp c a b s = .next t) :
    PortEffect i s t := by
  unfold makeOp at h
  split at h <;> cases h
  · exact .fault _
  · exact .answer _ _

theorem frameSample_cfg (s : State) (m sel : BitVec 3) (a n : Nat) : (s.frameSample m sel a n).cfg = s.cfg := rfl

theorem frameSample_cbc (s : State) (m sel : BitVec 3) (a n : Nat) (i : Inst) :
    (s.frameSample m sel a n).cbc i = s.cbc i := by cases i <;> rfl

theorem sendOp_effect {i : Instr} {m : BitVec 3} {w : CommandWord} {a b : Byte} {s t : State} (hv : s.cfg.valid = true)
    (hi : decodeCommand w = i)
    (hw : ∀ sel, log2Length b = some sel → a.toNat + b.toNat + 2 ≤ s.cfg.sampleSize → MayHold s.cfg i)
    (h : sendOp m w a b s = .next t) : PortEffect i s t := by
  unfold sendOp at h
  split at h
  · cases h; exact .fault _
  · next sel hsel =>
    split at h
    · cases h; exact .fault _
    · next hr =>
      split at h
      · cases h; exact .answer _ _
      · next hst =>
        split at h
        · next hroom =>
          have hroom' := hroom
          simp only [State.txRoom, decide_eq_true_eq] at hroom'
          obtain ⟨u, hu⟩ := cbPushAll_isSome (s := s.frameSample m sel a.toNat b.toNat) (i := .tx)
            (vs := (s.frameSample m sel a.toNat b.toNat).readBytes .sample a.toNat (b.toNat + 2)) hv (by
              have hl : ((s.frameSample m sel a.toNat b.toNat).readBytes .sample a.toNat (b.toNat + 2)).length
                  = b.toNat + 2 := by simp [State.readBytes]
              rw [hl, frameSample_cfg]
              have hz : (s.frameSample m sel a.toNat b.toNat).cbSize .tx = s.cbSize .tx := by
                simp only [State.cbSize, frameSample_cbc]
              rw [hz]
              omega)
          simp only [hu] at h
          cases h
          exact .send m sel _ _ u (by simpa using hst) (by omega) hroom hu
        · cases h
          exact .hold _ hi (hw sel hsel (by omega))

theorem pushResult_effect {i : Instr} {s : State} {c : Inst} {v : Byte} {w : CommandWord}
    (hc : c = .eq ∨ c = .rx ∧ s.rxEn = true) (hf : s.cbFull c = false) :
    PortEffect i s (s.pushResult w (s.cbPush c v)) := by
  obtain ⟨u, hu⟩ := Option.isSome_iff_exists.mp (cbPush_isSome s c v hf)
  rw [hu]
  exact .push c v u hc hu

/-- Every operation that a port can issue has one of the nine effects, in a legal configuration. -/
theorem exec_command_effect {i : Instr} {s t : State} (hv : s.cfg.valid = true) (hi : ∃ w, encode i = .command w)
    (h : exec i s = .next t) : PortEffect i s t := by
  have hsend : ∀ {b sel}, log2Length b = some sel → (log2Length b).isSome = true := fun h => by rw [h]; rfl
  cases i with
  | cbPushRx a =>
    simp only [exec, execCbPushRx] at h
    split at h
    · cases h; exact .answer _ _
    · next hx =>
      split at h
      · cases h; exact .drop .rx (by decide)
      · next hf =>
        cases h
        exact pushResult_effect (.inr ⟨rfl, by simpa using hx⟩) (by simpa using hf)
  | cbPopTx =>
    simp only [exec, execCbPopTx] at h
    split at h
    · cases h; exact .answer _ _
    · next he =>
      obtain ⟨⟨v, u⟩, hu⟩ := Option.isSome_iff_exists.mp (cbPop_isSome s .tx (by simpa using he))
      simp only [hu] at h
      cases h
      exact .pop v u hu
  | eqTryPush a =>
    simp only [exec, execEqTryPush] at h
    split at h
    · cases h; exact .drop .eq (by decide)
    · next hf => cases h; exact pushResult_effect (.inl rfl) (by simpa using hf)
  | eqPush a b =>
    simp only [exec, execEqPush] at h
    split at h
    · next hf => cases h; exact pushResult_effect (.inl rfl) hf
    · split at h
      · cases h; exact .answer _ _
      · cases h; exact .hold _ (decodeCommand_mkCommand 0x61#8 a b) trivial
  | sbWrite a b =>
    simp only [exec, execSbWrite] at h
    split at h
    · cases h; exact .fault _
    · cases h; exact .write _ _ (by omega)
  | sbRead a =>
    simp only [exec, execSbRead] at h
    split at h
    · cases h; exact .fault _
    · cases h; exact .answer _ _
  | sendData0 a b =>
    exact sendOp_effect hv (decodeCommand_mkCommand 0x70#8 a b) (fun _ h1 h2 => ⟨hsend h1, h2⟩) h
  | sendData1 a b =>
    exact sendOp_effect hv (decodeCommand_mkCommand 0x71#8 a b) (fun _ h1 h2 => ⟨hsend h1, h2⟩) h
  | sendData2 a b =>
    exact sendOp_effect hv (decodeCommand_mkCommand 0x72#8 a b) (fun _ h1 h2 => ⟨hsend h1, h2⟩) h
  | sendData3 a b =>
    exact sendOp_effect hv (decodeCommand_mkCommand 0x73#8 a b) (fun _ h1 h2 => ⟨hsend h1, h2⟩) h
  | sendData4 a b =>
    exact sendOp_effect hv (decodeCommand_mkCommand 0x74#8 a b) (fun _ h1 h2 => ⟨hsend h1, h2⟩) h
  | sendData5 a b =>
    exact sendOp_effect hv (decodeCommand_mkCommand 0x75#8 a b) (fun _ h1 h2 => ⟨hsend h1, h2⟩) h
  | sendData6 a b =>
    exact sendOp_effect hv (decodeCommand_mkCommand 0x76#8 a b) (fun _ h1 h2 => ⟨hsend h1, h2⟩) h
  | sendData7 a b =>
    exact sendOp_effect hv (decodeCommand_mkCommand 0x77#8 a b) (fun _ h1 h2 => ⟨hsend h1, h2⟩) h
  | frMakeSys a b => exact makeOp_effect h
  | frMakeCmd a b => exact makeOp_effect h
  | frMakeInfo a b => exact makeOp_effect h
  | frMakeData a b => exact makeOp_effect h
  | ckInit => cases h; exact .load _
  | ckSeed a => cases h; exact .load _
  | ckFold a => cases h; exact .load _
  | illegalOpcode o => exact illegalOp_effect h
  | illegal10 => exact illegalOp_effect h
  | illegal12 => exact illegalOp_effect h
  | illegal13 => exact illegalOp_effect h
  | illegal14 => exact illegalOp_effect h
  | illegal15 => exact illegalOp_effect h
  | illegal17 => exact illegalOp_effect h
  | illegal1B => exact illegalOp_effect h
  | illegal1F => exact illegalOp_effect h
  | illegal23 => exact illegalOp_effect h
  | illegal27 => exact illegalOp_effect h
  | illegal62 => exact illegalOp_effect h
  | illegal63 => exact illegalOp_effect h
  | waitAckAck => obtain ⟨w, hw⟩ := hi; cases hw
  | sysNack => obtain ⟨w, hw⟩ := hi; cases hw
  | sysOther l x => obtain ⟨w, hw⟩ := hi; cases hw
  | cmdLenReserved l x => obtain ⟨w, hw⟩ := hi; cases hw
  | cmdSelect l => obtain ⟨w, hw⟩ := hi; cases hw
  | cmdWrite l => obtain ⟨w, hw⟩ := hi; cases hw
  | cmdOther l x => obtain ⟨w, hw⟩ := hi; cases hw
  | infoFrame l x => obtain ⟨w, hw⟩ := hi; cases hw
  | dataFrame l x => obtain ⟨w, hw⟩ := hi; cases hw
  | eventData n => obtain ⟨w, hw⟩ := hi; cases hw
  | eventScale n => obtain ⟨w, hw⟩ := hi; cases hw
  | eventMode n => obtain ⟨w, hw⟩ := hi; cases hw
  | eventReset n => obtain ⟨w, hw⟩ := hi; cases hw
  | eventStart n => obtain ⟨w, hw⟩ := hi; cases hw
  | eventStop n => obtain ⟨w, hw⟩ := hi; cases hw
  | eventRequest n => obtain ⟨w, hw⟩ := hi; cases hw
  | eventEeprom n => obtain ⟨w, hw⟩ := hi; cases hw
  | _ => cases h; exact .answer _ _

/-- What a port decodes is always a port operation. -/
theorem encode_decodeCommand (w : CommandWord) : ∃ w', encode (decodeCommand w) = .command w' := by
  unfold decodeCommand decodeOpcode
  split <;> exact ⟨_, rfl⟩

/-! ### SES -/

/-- The frame starts a command that the reader reads: class CMD and at most 32 payload bytes (R215, R216). -/
def StartsRead (f : Byte) : Prop := classOf f = 1#2 ∧ (selOf f).toNat ≤ 5

/-- What the command of a frame does after a good read (R216). -/
def commandCase (f : Byte) (s : State) : State :=
  if contentOf f = 3#3 then selectCase f s
  else if contentOf f = Config.writeId then writeCase f s
  else s.finishFrame .notExpectedCommand

theorem mkFrame_of_class {f : Byte} {c : BitVec 2} {x : BitVec 3} (hc : classOf f = c) (hx : contentOf f = x) :
    mkFrame c (selOf f) x = f := by rw [← hc, ← hx, mkFrame_fields]

/-- A frame that starts a read runs the procedure of R216 with its own case. -/
theorem exec_decodeFrame_read {f : Byte} (h : StartsRead f) (s : State) :
    exec (decodeFrame f) s = .next (commandStep f (commandCase f) s) := by
  obtain ⟨hc, hs⟩ := h
  have hcn : (classOf f).toNat = 1 := by rw [hc]; rfl
  have hn : ¬ 6 ≤ (selOf f).toNat := by omega
  simp only [decodeFrame, hcn, hn, if_false]
  unfold commandCase
  by_cases h3 : contentOf f = 3#3
  · simp only [h3, if_true, exec, execCmdSelect, mkFrame_of_class hc h3]
  · by_cases h4 : contentOf f = Config.writeId
    · have h34 : ¬ (Config.writeId = 3#3) := by decide
      simp only [h4, h34, if_false, if_true, exec, execCmdWrite, mkFrame_of_class hc h4]
    · simp only [h3, h4, if_false, exec, execCmdOther, mkFrame_of_class hc rfl]

/-- Every other frame ends its exchange at once (R214, R215, R220, R221). -/
theorem exec_decodeFrame_other {f : Byte} (h : ¬ StartsRead f) :
    ∃ k, ∀ s, exec (decodeFrame f) s = .next (s.finishFrame k) := by
  unfold decodeFrame
  split
  · split
    · exact ⟨_, fun _ => rfl⟩
    · exact ⟨_, fun _ => rfl⟩
  · next hc =>
    split
    · exact ⟨_, fun _ => rfl⟩
    · next hs =>
      refine absurd ⟨?_, by omega⟩ h
      exact BitVec.eq_of_toNat_eq hc
  · exact ⟨_, fun _ => rfl⟩
  · exact ⟨_, fun _ => rfl⟩

/-- What a transition of SES can do, by the wait point it stands at (R240). -/
inductive SesEffect (s : State) : State → Prop where
  | stay : SesEffect s s
  | bad (h : 6 ≤ s.sessState.toNat) : SesEffect s (s.raiseBadState .ses)
  | enter (h : s.sessPhase = .entry) : SesEffect s s.enterCurrent
  | init (h : s.sessPhase = .sleepRestart) (hx : s.sesExpired = true) : SesEffect s s.enterInit
  | sent (k : Nat) (h : s.sessPhase = .txPut k) (hd : s.cfg.desc[k]? = none) : SesEffect s s.enterWaitingForAck
  | send (k : Nat) (b : Byte) (u : State) (h : s.sessPhase = .txPut k) (hd : s.cfg.desc[k]? = some b)
    (hu : s.cbPush .tx b = some u) :
    SesEffect s (if k + 1 < s.cfg.desc.length then u.sesWait (.txPut (k + 1)) else u.enterWaitingForAck)
  | ack (u : State) (h : s.sessPhase = .getAck) (hu : s.cbPop .rx = some (0x04#8, u)) :
    SesEffect s (u.setResult .success).enterSetSpeed
  | notAck (r : Byte) (u : State) (h : s.sessPhase = .getAck) (hu : s.cbPop .rx = some (r, u)) :
    SesEffect s (u.failAck .notExpectedCommand)
  | ackTimeout (h : s.sessPhase = .getAck) : SesEffect s (s.failAck .timeout)
  | speedSet (h : s.sessPhase = .sleepSpeed) (hx : s.sesExpired = true) : SesEffect s (s.sesWait .pushStart)
  | started (u : State) (h : s.sessPhase = .pushStart) (hu : s.cbPush .eq (eventByte 4#3 0#8) = some u) :
    SesEffect s u.enterWaitingForCommand
  | startTimeout (h : s.sessPhase = .pushStart) : SesEffect s (s.setResult .timeout).enterReset
  | frame (f : Byte) (k : ErrKind) (u : State) (h : s.sessPhase = .getFrame) (hu : s.cbPop .rx = some (f, u)) :
    SesEffect s (u.finishFrame k)
  | beginRead (f : Byte) (u : State) (h : s.sessPhase = .getFrame) (hu : s.cbPop .rx = some (f, u))
    (hf : StartsRead f) : SesEffect s (u.beginRead f)
  | timeout (h : s.sessPhase = .getFrame ∨ ∃ f pt, s.sessPhase = .command f pt) : SesEffect s (s.finishFrame .timeout)
  | payload (f : Byte) (k : Nat) (r : Byte) (u : State) (h : s.sessPhase = .command f (.payload k))
    (hu : s.cbPop .rx = some (r, u)) :
    SesEffect s (({ u.cmdBufWrite k r with rdCk := u.rdCk ^^^ r } : State).sesWait
      (if k + 1 < u.cmdLen.toNat then .command f (.payload (k + 1)) else .command f .checksum))
  | mismatch (f : Byte) (r : Byte) (u : State) (h : s.sessPhase = .command f .checksum)
    (hu : s.cbPop .rx = some (r, u)) : SesEffect s (u.finishFrame .crcError)
  | good (f : Byte) (r : Byte) (u : State) (h : s.sessPhase = .command f .checksum) (hf : StartsRead f)
    (hu : s.cbPop .rx = some (r, u)) (hr : r = u.rdCk) : SesEffect s (commandCase f u)
  | pushed (f : Byte) (e : Byte) (u : State) (h : s.sessPhase = .command f (.push e))
    (hu : s.cbPush .eq e = some u) : SesEffect s (u.finishFrame .success)
  | stray (f : Byte) (pt : CmdPoint) (k : ErrKind) (h : s.sessPhase = .command f pt) (hf : ¬ StartsRead f) :
    SesEffect s (s.finishFrame k)
  | stopped (u : State) (h : s.sessPhase = .pushStop) (hu : s.cbPush .eq (eventByte 5#3 0#8) = some u) :
    SesEffect s u.enterReset
  | stopTimeout (h : s.sessPhase = .pushStop) : SesEffect s s.enterReset

theorem readPayload_effect {s : State} {f : Byte} {k : Nat} (h : s.sessPhase = .command f (.payload k)) :
    SesEffect s (s.readPayload f k) := by
  unfold State.readPayload
  rcases getByte_cases s with ⟨_, r, u, hu, hg⟩ | ⟨_, _, hg⟩ | ⟨_, _, hg⟩
  · simp only [hg]
    have := SesEffect.payload f k r u h hu
    split
    · next hk => rw [if_pos (show k + 1 < u.cmdLen.toNat from hk)] at this; exact this
    · next hk => rw [if_neg (show ¬ k + 1 < u.cmdLen.toNat from hk)] at this; exact this
  · simp only [hg]; exact .timeout (.inr ⟨f, _, h⟩)
  · simp only [hg]; exact .stay

theorem commandStep_effect {s : State} {f : Byte} {pt : CmdPoint} (h : s.sessPhase = .command f pt)
    (hf : StartsRead f) : SesEffect s (commandStep f (commandCase f) s) := by
  unfold commandStep
  rw [h]
  cases pt with
  | payload k => exact readPayload_effect h
  | checksum =>
    simp only [State.readChecksum]
    rcases getByte_cases s with ⟨_, r, u, hu, hg⟩ | ⟨_, _, hg⟩ | ⟨_, _, hg⟩
    · simp only [hg]
      split
      · next hr => exact .good f r u h hf hu hr
      · exact .mismatch f r u h hu
    · simp only [hg]; exact .timeout (.inr ⟨f, _, h⟩)
    · simp only [hg]; exact .stay
  | push e =>
    simp only [State.pushCommandEvent]
    rcases sessionPush_cases s e with ⟨_, u, hu, hg⟩ | ⟨_, _, hg⟩ | ⟨_, _, hg⟩
    · simp only [hg]; exact .pushed f e u h hu
    · simp only [hg]; exact .timeout (.inr ⟨f, _, h⟩)
    · simp only [hg]; exact .stay
  | forward => exact .stay

/-- The state that a pop leaves is at the same wait point. -/
theorem sessPhase_of_cbPop {s u : State} {i : Inst} {v : Byte} (h : s.cbPop i = some (v, u)) :
    u.sessPhase = s.sessPhase := by
  rw [cbPop_eq] at h
  split at h
  · cases h
  · cases h; simp

/-- Every transition of SES is one of these. -/
theorem sesStep_effect {s t : State} (h : sesStep s = .next t) : SesEffect s t := by
  unfold sesStep at h
  split at h
  · cases h; exact .stay
  · split at h
    · next h6 => cases h; exact .bad h6
    · split at h
      · next hp => cases h; exact .enter hp
      · next hp =>
        cases h
        unfold sleepStep
        split
        · next hx => exact .init hp hx
        · exact .stay
      · next k hp =>
        cases h
        unfold txPutStep
        split
        · next hd => exact .sent k hp hd
        · next b hd =>
          rcases txPut_cases s b with ⟨_, u, hu, hg⟩ | ⟨_, hg⟩
          · simp only [hg]; exact .send k b u hp hd hu
          · simp only [hg]; exact .stay
      · next hp =>
        unfold ackStep at h
        rcases getByte_cases s with ⟨_, r, u, hu, hg⟩ | ⟨_, _, hg⟩ | ⟨_, _, hg⟩
        · simp only [hg, decode, decodeAck] at h
          by_cases hr : r = 0x04#8
          · subst hr
            simp only [if_true, exec, execWaitAckAck] at h
            cases h; exact .ack u hp hu
          · simp only [if_neg hr] at h
            cases h; exact .notAck r u hp hu
        · simp only [hg] at h; cases h; exact .ackTimeout hp
        · simp only [hg] at h; cases h; exact .stay
      · next hp =>
        cases h
        unfold sleepStep
        split
        · next hx => exact .speedSet hp hx
        · exact .stay
      · next hp =>
        cases h
        unfold startPushStep
        rcases sessionPush_cases s (eventByte 4#3 0#8) with ⟨_, u, hu, hg⟩ | ⟨_, _, hg⟩ | ⟨_, _, hg⟩
        · simp only [hg]; exact .started u hp hu
        · simp only [hg]; exact .startTimeout hp
        · simp only [hg]; exact .stay
      · next hp =>
        unfold frameStep at h
        rcases getByte_cases s with ⟨_, f, u, hu, hg⟩ | ⟨_, _, hg⟩ | ⟨_, _, hg⟩
        · simp only [hg] at h
          by_cases hf : StartsRead f
          · rw [exec_decodeFrame_read hf] at h
            have hup := (sessPhase_of_cbPop hu).trans hp
            simp only [commandStep, hup] at h
            cases h
            exact .beginRead f u hp hu hf
          · obtain ⟨k, hk⟩ := exec_decodeFrame_other hf
            rw [hk] at h
            cases h
            exact .frame f k u hp hu
        · simp only [hg] at h; cases h; exact .timeout (.inl hp)
        · simp only [hg] at h; cases h; exact .stay
      · next f pt hp =>
        by_cases hf : StartsRead f
        · rw [exec_decodeFrame_read hf] at h
          cases h
          exact commandStep_effect hp hf
        · obtain ⟨k, hk⟩ := exec_decodeFrame_other hf
          rw [hk] at h
          cases h
          exact .stray f pt k hp hf
      · next hp =>
        cases h
        unfold stopPushStep
        rcases sessionPush_cases s (eventByte 5#3 0#8) with ⟨_, u, hu, hg⟩ | ⟨_, _, hg⟩ | ⟨_, _, hg⟩
        · simp only [hg]; exact .stopped u hp hu
        · simp only [hg]; exact .stopTimeout hp
        · simp only [hg]; exact .stay
      · cases h; exact .stay

/-! ### DSP -/

/-- What a transition of DSP can do (R290): nothing, present the popped event to DEV, or consume a Request event. -/
inductive DspEffect (s : State) : State → Prop where
  | stay : DspEffect s s
  | request (k : BitVec 3) (n : BitVec 5) (u : State) (h : s.dspPhase = .waitEvent) (hk : k ≠ 6#3)
    (hu : s.cbPop .eq = some (mkEvent k n, u)) : DspEffect s (u.presentRequest k n)
  | consume (n : BitVec 5) (u : State) (h : s.dspPhase = .waitEvent) (hu : s.cbPop .eq = some (mkEvent 6#3 n, u)) :
    DspEffect s { u with dspEv := mkEvent 6#3 n, dspPhase := .waitEvent }

/-- What the event of a byte does: kind 6 is consumed, every other kind is presented. -/
theorem exec_decodeEvent (e : Byte) (s : State) :
    exec (decodeEvent e) s =
      if kindOf e = 6#3 then .next { s with dspEv := mkEvent 6#3 (infoOf e), dspPhase := .waitEvent }
      else .next (s.presentRequest (kindOf e) (infoOf e)) := by
  unfold decodeEvent
  generalize infoOf e = n
  generalize kindOf e = k
  revert k
  have : ∀ k : BitVec 3, k = 0#3 ∨ k = 1#3 ∨ k = 2#3 ∨ k = 3#3 ∨ k = 4#3 ∨ k = 5#3 ∨ k = 6#3 ∨ k = 7#3 := by decide
  intro k
  rcases this k with h | h | h | h | h | h | h | h <;> subst h <;> rfl

theorem dspStep_effect {s t : State} (h : dspStep s = .next t) : DspEffect s t := by
  unfold dspStep at h
  split at h
  · next hp =>
    split at h
    · cases h; exact .stay
    · next he =>
      obtain ⟨⟨e, u⟩, hu⟩ := Option.isSome_iff_exists.mp (cbPop_isSome s .eq (by simpa using he))
      simp only [hu] at h
      rw [exec_decodeEvent] at h
      have hme := mkEvent_fields e
      split at h
      · next hk =>
        cases h
        rw [← hme, hk] at hu
        exact .consume _ u hp hu
      · next hk =>
        cases h
        rw [← hme] at hu
        exact .request _ _ u hp hk hu
  · cases h; exact .stay
  · cases h; exact .stay

/-! ### One step -/

/-- What a step can do, in a legal configuration, from the state `u` that has taken its stimulus: a port operation on the
port it was issued on, a transition of SES or DSP, an expiry, an acknowledgement, a change of the reset input, or
nothing. -/
inductive StepEffect (u : State) : State → Prop where
  | stay : StepEffect u u
  | port (p : Port) (w : CommandWord) (t : State)
    (hp : (portExists u.cfg p = true ∧ u.pendOf p = none) ∨ ∃ h, u.pendOf p = some h ∧ h.word = w)
    (h : PortEffect (decodeCommand w) { u with port := p } t) : StepEffect u t
  | ses (t : State) (h : SesEffect u t) : StepEffect u t
  | dsp (t : State) (h : DspEffect u t) : StepEffect u t
  | expire (w : Wait) : StepEffect u (u.expire w)
  | ackRequest (hp : u.dspPhase = .waitAck) (hd : u.pendOf .dev = none) : StepEffect u { u with dspPhase := .waitEvent }
  | ackForward (f : Byte) (hp : u.sessPhase = .command f .forward) (hd : u.pendOf .dev = none)
    (h6 : u.sessState.toNat < 6) : StepEffect u (u.finishFrame .success)
  | ackBad (f : Byte) (hp : u.sessPhase = .command f .forward) (h6 : 6 ≤ u.sessState.toNat) :
    StepEffect u (u.raiseBadState .ses)
  | drive (level : Bool) : StepEffect u (u.driveReset level)

/-- What DEV's acknowledgement of a device request can do. -/
theorem ackRequest_effect (u : State) : StepEffect u (ackRequest u) := by
  unfold ackRequest
  split
  · next hp =>
    split
    · next hd => exact .ackRequest hp hd
    · exact .stay
  · exact .stay

/-- What DEV's acknowledgement of a write forward can do. -/
theorem ackForward_effect (u : State) : StepEffect u (ackForward u) := by
  unfold ackForward
  split
  · next f hp =>
    split
    · exact .stay
    · next hd =>
      split
      · next h6 => exact .ackBad f hp h6
      · next h6 => exact .ackForward f hp (Decidable.of_not_not hd) (by omega)
  · exact .stay

theorem transition_effect {x : Stimulus} {u t : State} (hv : u.cfg.valid = true) (h : transition x u = .next t) :
    StepEffect u t := by
  unfold transition at h
  split at h
  · cases h; exact .drive _
  · split at h
    · cases h; exact .stay
    · split at h
      · exact .ses t (sesStep_effect h)
      · exact .dsp t (dspStep_effect h)
      · rename_i p w _
        unfold issue at h
        split at h
        · next hp => exact .port p w t (.inl hp) (exec_command_effect hv (encode_decodeCommand w) h)
        · cases h; exact .stay
      · rename_i p _
        unfold resume at h
        split at h
        · next hh hp => exact .port p _ t (.inr ⟨hh, hp, rfl⟩) (exec_command_effect hv (encode_decodeCommand _) h)
        · cases h; exact .stay
      · cases h; exact .expire _
      · cases h; exact ackRequest_effect _
      · cases h; exact ackForward_effect _
      · cases h; exact .stay

/-- The state that has taken its stimulus differs only in the choice of the stimulus. -/
theorem nextStimulus_state (s : State) :
    ∃ i n, (nextStimulus s).2 = { s with inputs := i, tick := n } := by
  unfold nextStimulus
  split
  · exact ⟨_, s.tick, rfl⟩
  · next h => exact ⟨s.inputs, _, rfl⟩

/-- Every step to a next state is one of these, in a legal configuration. -/
theorem step_effect {s t : State} (h : step s = .next t) :
    s.cfg.valid = true ∧ ∃ i n, StepEffect { s with inputs := i, tick := n } t := by
  unfold step at h
  split at h
  · next hv =>
    obtain ⟨i, n, hn⟩ := nextStimulus_state s
    rw [hn] at h
    exact ⟨hv, i, n, transition_effect (u := { s with inputs := i, tick := n }) hv h⟩
  · cases h

end Sys2Proof.Machine
end

