-- ==== Sys2Proof/Laws/PerInstr.lean ====
section
/-! SUPPORT. A statement about every instruction, made for each constructor: its code is in the format of its row of
spec/opcode_table.json and agrees with the row's match value under the row's mask. The rows stand here as the table has
them, apart from the encoder. -/

namespace Sys2Proof.Laws

/-- The formats of the opcode table. -/
inductive Format where
  | cmd24
  | wireFrame
  | event
deriving DecidableEq, Repr

/-- One row of the opcode table: its format, its mask, and its match value. -/
structure Row where
  format : Format
  mask : BitVec 24
  value : BitVec 24
deriving DecidableEq, Repr

/-- The row of each instruction, as spec/opcode_table.json has it. -/
def rowOf : Instr → Row
  | .cbPushRx _ => ⟨.cmd24, 0xFF0000#24, 0x110000#24⟩
  | .cbPopTx => ⟨.cmd24, 0xFF0000#24, 0x160000#24⟩
  | .cbSizeEq => ⟨.cmd24, 0xFF0000#24, 0x180000#24⟩
  | .cbSizeRx => ⟨.cmd24, 0xFF0000#24, 0x190000#24⟩
  | .cbSizeTx => ⟨.cmd24, 0xFF0000#24, 0x1A0000#24⟩
  | .cbEmptyEq => ⟨.cmd24, 0xFF0000#24, 0x1C0000#24⟩
  | .cbEmptyRx => ⟨.cmd24, 0xFF0000#24, 0x1D0000#24⟩
  | .cbEmptyTx => ⟨.cmd24, 0xFF0000#24, 0x1E0000#24⟩
  | .cbFullEq => ⟨.cmd24, 0xFF0000#24, 0x200000#24⟩
  | .cbFullRx => ⟨.cmd24, 0xFF0000#24, 0x210000#24⟩
  | .cbFullTx => ⟨.cmd24, 0xFF0000#24, 0x220000#24⟩
  | .cbDropsEq => ⟨.cmd24, 0xFF0000#24, 0x240000#24⟩
  | .cbDropsRx => ⟨.cmd24, 0xFF0000#24, 0x250000#24⟩
  | .cbDropsTx => ⟨.cmd24, 0xFF0000#24, 0x260000#24⟩
  | .ckInit => ⟨.cmd24, 0xFF0000#24, 0x300000#24⟩
  | .ckSeed _ => ⟨.cmd24, 0xFF0000#24, 0x310000#24⟩
  | .ckFold _ => ⟨.cmd24, 0xFF0000#24, 0x320000#24⟩
  | .ckRead => ⟨.cmd24, 0xFF0000#24, 0x330000#24⟩
  | .ckCheck _ => ⟨.cmd24, 0xFF0000#24, 0x340000#24⟩
  | .frMakeSys _ _ => ⟨.cmd24, 0xFF0000#24, 0x400000#24⟩
  | .frMakeCmd _ _ => ⟨.cmd24, 0xFF0000#24, 0x410000#24⟩
  | .frMakeInfo _ _ => ⟨.cmd24, 0xFF0000#24, 0x420000#24⟩
  | .frMakeData _ _ => ⟨.cmd24, 0xFF0000#24, 0x430000#24⟩
  | .frClass _ => ⟨.cmd24, 0xFF0000#24, 0x440000#24⟩
  | .frContent _ => ⟨.cmd24, 0xFF0000#24, 0x450000#24⟩
  | .frLength _ => ⟨.cmd24, 0xFF0000#24, 0x460000#24⟩
  | .evMakeData _ => ⟨.cmd24, 0xFF0000#24, 0x500000#24⟩
  | .evMakeScale _ => ⟨.cmd24, 0xFF0000#24, 0x510000#24⟩
  | .evMakeMode _ => ⟨.cmd24, 0xFF0000#24, 0x520000#24⟩
  | .evMakeReset _ => ⟨.cmd24, 0xFF0000#24, 0x530000#24⟩
  | .evMakeStart _ => ⟨.cmd24, 0xFF0000#24, 0x540000#24⟩
  | .evMakeStop _ => ⟨.cmd24, 0xFF0000#24, 0x550000#24⟩
  | .evMakeRequest _ => ⟨.cmd24, 0xFF0000#24, 0x560000#24⟩
  | .evMakeEeprom _ => ⟨.cmd24, 0xFF0000#24, 0x570000#24⟩
  | .evKind _ => ⟨.cmd24, 0xFF0000#24, 0x580000#24⟩
  | .evInfo _ => ⟨.cmd24, 0xFF0000#24, 0x590000#24⟩
  | .eqTryPush _ => ⟨.cmd24, 0xFF0000#24, 0x600000#24⟩
  | .eqPush _ _ => ⟨.cmd24, 0xFF0000#24, 0x610000#24⟩
  | .sendData0 _ _ => ⟨.cmd24, 0xFF0000#24, 0x700000#24⟩
  | .sendData1 _ _ => ⟨.cmd24, 0xFF0000#24, 0x710000#24⟩
  | .sendData2 _ _ => ⟨.cmd24, 0xFF0000#24, 0x720000#24⟩
  | .sendData3 _ _ => ⟨.cmd24, 0xFF0000#24, 0x730000#24⟩
  | .sendData4 _ _ => ⟨.cmd24, 0xFF0000#24, 0x740000#24⟩
  | .sendData5 _ _ => ⟨.cmd24, 0xFF0000#24, 0x750000#24⟩
  | .sendData6 _ _ => ⟨.cmd24, 0xFF0000#24, 0x760000#24⟩
  | .sendData7 _ _ => ⟨.cmd24, 0xFF0000#24, 0x770000#24⟩
  | .sbWrite _ _ => ⟨.cmd24, 0xFF0000#24, 0x780000#24⟩
  | .sbRead _ => ⟨.cmd24, 0xFF0000#24, 0x790000#24⟩
  | .sesState => ⟨.cmd24, 0xFF0000#24, 0x7A0000#24⟩
  | .sesResult => ⟨.cmd24, 0xFF0000#24, 0x7B0000#24⟩
  | .linkRead => ⟨.cmd24, 0xFF0000#24, 0x7C0000#24⟩
  | .faultRead => ⟨.cmd24, 0xFF0000#24, 0x7D0000#24⟩
  | .illegal10 => ⟨.cmd24, 0xFF0000#24, 0x100000#24⟩
  | .illegal12 => ⟨.cmd24, 0xFF0000#24, 0x120000#24⟩
  | .illegal13 => ⟨.cmd24, 0xFF0000#24, 0x130000#24⟩
  | .illegal14 => ⟨.cmd24, 0xFF0000#24, 0x140000#24⟩
  | .illegal15 => ⟨.cmd24, 0xFF0000#24, 0x150000#24⟩
  | .illegal17 => ⟨.cmd24, 0xFF0000#24, 0x170000#24⟩
  | .illegal1B => ⟨.cmd24, 0xFF0000#24, 0x1B0000#24⟩
  | .illegal1F => ⟨.cmd24, 0xFF0000#24, 0x1F0000#24⟩
  | .illegal23 => ⟨.cmd24, 0xFF0000#24, 0x230000#24⟩
  | .illegal27 => ⟨.cmd24, 0xFF0000#24, 0x270000#24⟩
  | .illegal62 => ⟨.cmd24, 0xFF0000#24, 0x620000#24⟩
  | .illegal63 => ⟨.cmd24, 0xFF0000#24, 0x630000#24⟩
  | .illegalOpcode _ => ⟨.cmd24, 0x000000#24, 0x000000#24⟩
  | .waitAckAck => ⟨.wireFrame, 0xFF#24, 0x04#24⟩
  | .sysNack => ⟨.wireFrame, 0xFF#24, 0x02#24⟩
  | .sysOther _ _ => ⟨.wireFrame, 0xC0#24, 0x00#24⟩
  | .cmdLenReserved _ _ => ⟨.wireFrame, 0xF0#24, 0x70#24⟩
  | .cmdSelect _ => ⟨.wireFrame, 0xC7#24, 0x43#24⟩
  | .cmdWrite _ => ⟨.wireFrame, 0xC7#24, 0x44#24⟩
  | .cmdOther _ _ => ⟨.wireFrame, 0xC0#24, 0x40#24⟩
  | .infoFrame _ _ => ⟨.wireFrame, 0xC0#24, 0x80#24⟩
  | .dataFrame _ _ => ⟨.wireFrame, 0xC0#24, 0xC0#24⟩
  | .eventData _ => ⟨.event, 0xE0#24, 0x00#24⟩
  | .eventScale _ => ⟨.event, 0xE0#24, 0x20#24⟩
  | .eventMode _ => ⟨.event, 0xE0#24, 0x40#24⟩
  | .eventReset _ => ⟨.event, 0xE0#24, 0x60#24⟩
  | .eventStart _ => ⟨.event, 0xE0#24, 0x80#24⟩
  | .eventStop _ => ⟨.event, 0xE0#24, 0xA0#24⟩
  | .eventRequest _ => ⟨.event, 0xE0#24, 0xC0#24⟩
  | .eventEeprom _ => ⟨.event, 0xE0#24, 0xE0#24⟩

/-- The format of a code. -/
def formatOf : Code → Format
  | .command _ => .cmd24
  | .ackByte _ => .wireFrame
  | .frameByte _ => .wireFrame
  | .eventByte _ => .event

/-- The number of a code, as the opcode table writes it. -/
def numberOf : Code → BitVec 24
  | .command w => w
  | .ackByte b => b.setWidth 24
  | .frameByte f => f.setWidth 24
  | .eventByte e => e.setWidth 24

/-- The mask of a command row keeps the opcode alone (R80). -/
theorem mkCommand_opcode (o a b : Byte) : mkCommand o a b &&& 0xFF0000#24 = o.setWidth 24 <<< 16 := by
  have h : mkCommand o a b &&& 0xFF0000#24 = mkCommand (opcOf (mkCommand o a b)) 0#8 0#8 := by
    generalize mkCommand o a b = w
    simp only [mkCommand, opcOf]
    apply BitVec.eq_of_getLsbD_eq
    intro i hi
    have hm : ∀ i : Fin 24, (0xFF0000#24).getLsbD i = decide (16 ≤ i.val) := by decide
    have := hm ⟨i, hi⟩
    simp only at this
    simp only [BitVec.getLsbD_and, BitVec.getLsbD_append, BitVec.getLsbD_extractLsb', this]
    by_cases h1 : i < 8
    · simp [h1, show ¬ 16 ≤ i by omega]
    · by_cases h2 : i - 8 < 8
      · simp [h1, h2, show ¬ 16 ≤ i by omega]
      · simp [h1, h2, show 16 ≤ i by omega, show i - 8 - 8 < 8 by omega, show 16 + (i - 8 - 8) = i by omega]
  have ho : ∀ o : Byte, mkCommand o 0#8 0#8 = o.setWidth 24 <<< 16 := by decide
  rw [h, opcOf_mkCommand, ho]

/-- The code of a well-formed instruction is in its row's format and matches its row under the row's mask. -/
def TableRow.Statement (i : Instr) : Prop :=
  i.wf = true →
    formatOf (encode i) = (rowOf i).format ∧ numberOf (encode i) &&& (rowOf i).mask = (rowOf i).value

/-- The statement for a command row, from its opcode. -/
theorem TableRow.of_command {i : Instr} {o a b : Byte} (he : encode i = .command (mkCommand o a b))
    (hr : rowOf i = ⟨.cmd24, 0xFF0000#24, o.setWidth 24 <<< 16⟩) : TableRow.Statement i := by
  intro _
  rw [he, hr]
  exact ⟨rfl, mkCommand_opcode o a b⟩

theorem TableRow.cbPushRx (a : Byte) : TableRow.Statement (.cbPushRx a) := TableRow.of_command rfl rfl

theorem TableRow.cbPopTx : TableRow.Statement .cbPopTx := TableRow.of_command rfl rfl

theorem TableRow.cbSizeEq : TableRow.Statement .cbSizeEq := TableRow.of_command rfl rfl

theorem TableRow.cbSizeRx : TableRow.Statement .cbSizeRx := TableRow.of_command rfl rfl

theorem TableRow.cbSizeTx : TableRow.Statement .cbSizeTx := TableRow.of_command rfl rfl

theorem TableRow.cbEmptyEq : TableRow.Statement .cbEmptyEq := TableRow.of_command rfl rfl

theorem TableRow.cbEmptyRx : TableRow.Statement .cbEmptyRx := TableRow.of_command rfl rfl

theorem TableRow.cbEmptyTx : TableRow.Statement .cbEmptyTx := TableRow.of_command rfl rfl

theorem TableRow.cbFullEq : TableRow.Statement .cbFullEq := TableRow.of_command rfl rfl

theorem TableRow.cbFullRx : TableRow.Statement .cbFullRx := TableRow.of_command rfl rfl

theorem TableRow.cbFullTx : TableRow.Statement .cbFullTx := TableRow.of_command rfl rfl

theorem TableRow.cbDropsEq : TableRow.Statement .cbDropsEq := TableRow.of_command rfl rfl

theorem TableRow.cbDropsRx : TableRow.Statement .cbDropsRx := TableRow.of_command rfl rfl

theorem TableRow.cbDropsTx : TableRow.Statement .cbDropsTx := TableRow.of_command rfl rfl

theorem TableRow.ckInit : TableRow.Statement .ckInit := TableRow.of_command rfl rfl

theorem TableRow.ckSeed (a : Byte) : TableRow.Statement (.ckSeed a) := TableRow.of_command rfl rfl

theorem TableRow.ckFold (a : Byte) : TableRow.Statement (.ckFold a) := TableRow.of_command rfl rfl

theorem TableRow.ckRead : TableRow.Statement .ckRead := TableRow.of_command rfl rfl

theorem TableRow.ckCheck (a : Byte) : TableRow.Statement (.ckCheck a) := TableRow.of_command rfl rfl

theorem TableRow.frMakeSys (a : Byte) (b : Byte) : TableRow.Statement (.frMakeSys a b) := TableRow.of_command rfl rfl

theorem TableRow.frMakeCmd (a : Byte) (b : Byte) : TableRow.Statement (.frMakeCmd a b) := TableRow.of_command rfl rfl

theorem TableRow.frMakeInfo (a : Byte) (b : Byte) : TableRow.Statement (.frMakeInfo a b) := TableRow.of_command rfl rfl

theorem TableRow.frMakeData (a : Byte) (b : Byte) : TableRow.Statement (.frMakeData a b) := TableRow.of_command rfl rfl

theorem TableRow.frClass (a : Byte) : TableRow.Statement (.frClass a) := TableRow.of_command rfl rfl

theorem TableRow.frContent (a : Byte) : TableRow.Statement (.frContent a) := TableRow.of_command rfl rfl

theorem TableRow.frLength (a : Byte) : TableRow.Statement (.frLength a) := TableRow.of_command rfl rfl

theorem TableRow.evMakeData (a : Byte) : TableRow.Statement (.evMakeData a) := TableRow.of_command rfl rfl

theorem TableRow.evMakeScale (a : Byte) : TableRow.Statement (.evMakeScale a) := TableRow.of_command rfl rfl

theorem TableRow.evMakeMode (a : Byte) : TableRow.Statement (.evMakeMode a) := TableRow.of_command rfl rfl

theorem TableRow.evMakeReset (a : Byte) : TableRow.Statement (.evMakeReset a) := TableRow.of_command rfl rfl

theorem TableRow.evMakeStart (a : Byte) : TableRow.Statement (.evMakeStart a) := TableRow.of_command rfl rfl

theorem TableRow.evMakeStop (a : Byte) : TableRow.Statement (.evMakeStop a) := TableRow.of_command rfl rfl

theorem TableRow.evMakeRequest (a : Byte) : TableRow.Statement (.evMakeRequest a) := TableRow.of_command rfl rfl

theorem TableRow.evMakeEeprom (a : Byte) : TableRow.Statement (.evMakeEeprom a) := TableRow.of_command rfl rfl

theorem TableRow.evKind (a : Byte) : TableRow.Statement (.evKind a) := TableRow.of_command rfl rfl

theorem TableRow.evInfo (a : Byte) : TableRow.Statement (.evInfo a) := TableRow.of_command rfl rfl

theorem TableRow.eqTryPush (a : Byte) : TableRow.Statement (.eqTryPush a) := TableRow.of_command rfl rfl

theorem TableRow.eqPush (a : Byte) (b : Byte) : TableRow.Statement (.eqPush a b) := TableRow.of_command rfl rfl

theorem TableRow.sendData0 (a : Byte) (b : Byte) : TableRow.Statement (.sendData0 a b) := TableRow.of_command rfl rfl

theorem TableRow.sendData1 (a : Byte) (b : Byte) : TableRow.Statement (.sendData1 a b) := TableRow.of_command rfl rfl

theorem TableRow.sendData2 (a : Byte) (b : Byte) : TableRow.Statement (.sendData2 a b) := TableRow.of_command rfl rfl

theorem TableRow.sendData3 (a : Byte) (b : Byte) : TableRow.Statement (.sendData3 a b) := TableRow.of_command rfl rfl

theorem TableRow.sendData4 (a : Byte) (b : Byte) : TableRow.Statement (.sendData4 a b) := TableRow.of_command rfl rfl

theorem TableRow.sendData5 (a : Byte) (b : Byte) : TableRow.Statement (.sendData5 a b) := TableRow.of_command rfl rfl

theorem TableRow.sendData6 (a : Byte) (b : Byte) : TableRow.Statement (.sendData6 a b) := TableRow.of_command rfl rfl

theorem TableRow.sendData7 (a : Byte) (b : Byte) : TableRow.Statement (.sendData7 a b) := TableRow.of_command rfl rfl

theorem TableRow.sbWrite (a : Byte) (b : Byte) : TableRow.Statement (.sbWrite a b) := TableRow.of_command rfl rfl

theorem TableRow.sbRead (a : Byte) : TableRow.Statement (.sbRead a) := TableRow.of_command rfl rfl

theorem TableRow.sesState : TableRow.Statement .sesState := TableRow.of_command rfl rfl

theorem TableRow.sesResult : TableRow.Statement .sesResult := TableRow.of_command rfl rfl

theorem TableRow.linkRead : TableRow.Statement .linkRead := TableRow.of_command rfl rfl

theorem TableRow.faultRead : TableRow.Statement .faultRead := TableRow.of_command rfl rfl

theorem TableRow.illegal10 : TableRow.Statement .illegal10 := TableRow.of_command rfl rfl

theorem TableRow.illegal12 : TableRow.Statement .illegal12 := TableRow.of_command rfl rfl

theorem TableRow.illegal13 : TableRow.Statement .illegal13 := TableRow.of_command rfl rfl

theorem TableRow.illegal14 : TableRow.Statement .illegal14 := TableRow.of_command rfl rfl

theorem TableRow.illegal15 : TableRow.Statement .illegal15 := TableRow.of_command rfl rfl

theorem TableRow.illegal17 : TableRow.Statement .illegal17 := TableRow.of_command rfl rfl

theorem TableRow.illegal1B : TableRow.Statement .illegal1B := TableRow.of_command rfl rfl

theorem TableRow.illegal1F : TableRow.Statement .illegal1F := TableRow.of_command rfl rfl

theorem TableRow.illegal23 : TableRow.Statement .illegal23 := TableRow.of_command rfl rfl

theorem TableRow.illegal27 : TableRow.Statement .illegal27 := TableRow.of_command rfl rfl

theorem TableRow.illegal62 : TableRow.Statement .illegal62 := TableRow.of_command rfl rfl

theorem TableRow.illegal63 : TableRow.Statement .illegal63 := TableRow.of_command rfl rfl

theorem TableRow.illegalOpcode (opc : Byte) : TableRow.Statement (.illegalOpcode opc) := fun _ => ⟨rfl, BitVec.and_zero⟩

theorem TableRow.waitAckAck : TableRow.Statement .waitAckAck := by unfold TableRow.Statement; decide

theorem TableRow.sysNack : TableRow.Statement .sysNack := by unfold TableRow.Statement; decide

theorem TableRow.sysOther (lll : BitVec 3) (xxx : BitVec 3) : TableRow.Statement (.sysOther lll xxx) := by
  revert lll xxx; unfold TableRow.Statement; decide

theorem TableRow.cmdLenReserved (lll : BitVec 3) (xxx : BitVec 3) : TableRow.Statement (.cmdLenReserved lll xxx) := by
  revert lll xxx; unfold TableRow.Statement; decide

theorem TableRow.cmdSelect (lll : BitVec 3) : TableRow.Statement (.cmdSelect lll) := by
  revert lll; unfold TableRow.Statement; decide

theorem TableRow.cmdWrite (lll : BitVec 3) : TableRow.Statement (.cmdWrite lll) := by
  revert lll; unfold TableRow.Statement; decide

theorem TableRow.cmdOther (lll : BitVec 3) (xxx : BitVec 3) : TableRow.Statement (.cmdOther lll xxx) := by
  revert lll xxx; unfold TableRow.Statement; decide

theorem TableRow.infoFrame (lll : BitVec 3) (xxx : BitVec 3) : TableRow.Statement (.infoFrame lll xxx) := by
  revert lll xxx; unfold TableRow.Statement; decide

theorem TableRow.dataFrame (lll : BitVec 3) (xxx : BitVec 3) : TableRow.Statement (.dataFrame lll xxx) := by
  revert lll xxx; unfold TableRow.Statement; decide

theorem TableRow.eventData (n : BitVec 5) : TableRow.Statement (.eventData n) := by
  revert n; unfold TableRow.Statement; decide

theorem TableRow.eventScale (n : BitVec 5) : TableRow.Statement (.eventScale n) := by
  revert n; unfold TableRow.Statement; decide

theorem TableRow.eventMode (n : BitVec 5) : TableRow.Statement (.eventMode n) := by
  revert n; unfold TableRow.Statement; decide

theorem TableRow.eventReset (n : BitVec 5) : TableRow.Statement (.eventReset n) := by
  revert n; unfold TableRow.Statement; decide

theorem TableRow.eventStart (n : BitVec 5) : TableRow.Statement (.eventStart n) := by
  revert n; unfold TableRow.Statement; decide

theorem TableRow.eventStop (n : BitVec 5) : TableRow.Statement (.eventStop n) := by
  revert n; unfold TableRow.Statement; decide

theorem TableRow.eventRequest (n : BitVec 5) : TableRow.Statement (.eventRequest n) := by
  revert n; unfold TableRow.Statement; decide

theorem TableRow.eventEeprom (n : BitVec 5) : TableRow.Statement (.eventEeprom n) := by
  revert n; unfold TableRow.Statement; decide

end Sys2Proof.Laws
end

