-- ==== Sys2Proof/Laws/Queue.lean ====
section
/-! SUPPORT. What an instance holds, oldest first, after each operation on it (R72, R124, R125, R127, R241); that each
operation keeps the canonical form; and what an expiry, the reset input and the end of an exchange can do. -/

namespace Sys2Proof.Machine

theorem epoch_of_cbPush {s t : State} {i : Inst} {v : Byte} (h : s.cbPush i v = some t) : t.epoch = s.epoch := by
  rw [cbPush_eq] at h
  split at h
  · cases h
  · cases h; simp

theorem cbc_of_cbPush {s t : State} {i : Inst} {v : Byte} (h : s.cbPush i v = some t) (j : Inst) :
    t.cbc j = if j = i then { s.cbc i with
      mem := (s.cbc i).mem.write (slotOf (s.cfg.cap i) (s.cbc i).wr) v, wr := (s.cbc i).wr + 1#8 } else s.cbc j := by
  rw [cbPush_eq] at h
  split at h
  · cases h
  · cases h; simp

theorem cbc_of_cbPop {s t : State} {i : Inst} {v : Byte} (h : s.cbPop i = some (v, t)) (j : Inst) :
    t.cbc j = if j = i then { s.cbc i with rd := (s.cbc i).rd + 1#8 } else s.cbc j := by
  rw [cbPop_eq] at h
  split at h
  · cases h
  · cases h; simp

theorem cfg_of_cbPop {s t : State} {i : Inst} {v : Byte} (h : s.cbPop i = some (v, t)) : t.cfg = s.cfg := by
  rw [cbPop_eq] at h
  split at h
  · cases h
  · cases h; simp

theorem epoch_of_cbPop {s t : State} {i : Inst} {v : Byte} (h : s.cbPop i = some (v, t)) : t.epoch = s.epoch := by
  rw [cbPop_eq] at h
  split at h
  · cases h
  · cases h; simp

/-- The state after a push, in full; and there was room. -/
theorem state_of_cbPush {s t : State} {i : Inst} {v : Byte} (h : s.cbPush i v = some t) :
    s.cbFull i = false ∧ t = s.setCbc i { s.cbc i with
      mem := (s.cbc i).mem.write (slotOf (s.cfg.cap i) (s.cbc i).wr) v, wr := (s.cbc i).wr + 1#8 } := by
  rw [cbPush_eq] at h
  split at h
  · cases h
  · next hf => cases h; exact ⟨by simpa using hf, rfl⟩

/-- The state after a pop, in full; and there was a byte. -/
theorem state_of_cbPop {s t : State} {i : Inst} {v : Byte} (h : s.cbPop i = some (v, t)) :
    s.cbEmpty i = false ∧ v = s.readByte (.cbMem i) (slotOf (s.cfg.cap i) (s.cbc i).rd) ∧
    t = s.setCbc i { s.cbc i with rd := (s.cbc i).rd + 1#8 } := by
  rw [cbPop_eq] at h
  split at h
  · cases h
  · next he => cases h; exact ⟨by simpa using he, rfl, rfl⟩

/-- Several pushes change their instance alone. -/
theorem state_of_cbPushAll {s t : State} {i : Inst} {vs : List Byte} (h : s.cbPushAll i vs = some t) :
    ∃ c, t = s.setCbc i c := by
  induction vs generalizing s with
  | nil => cases h; exact ⟨t.cbc i, by cases i <;> rfl⟩
  | cons v rest ih =>
    rw [State.cbPushAll] at h
    split at h
    · cases h
    · next u hu =>
      obtain ⟨c, rfl⟩ := ih h
      rw [(state_of_cbPush hu).2]
      exact ⟨c, by cases i <;> rfl⟩

/-- The queue of an instance depends on the instance, its capacity and the draw alone. -/
theorem queue_congr {s t : State} {i : Inst} (hc : t.cbc i = s.cbc i) (hf : t.cfg = s.cfg) (he : t.epoch = s.epoch) :
    t.queue i = s.queue i := by
  unfold State.queue
  simp only [State.cbSize, hc, hf]
  apply List.map_congr_left
  intro j _
  apply readByte_congr _ he
  simp only [State.mem, hc]

@[simp] theorem length_queue (s : State) (i : Inst) : (s.queue i).length = (s.cbSize i).toNat := by
  simp [State.queue]

/-- An instance with equal counters holds nothing. -/
theorem queue_of_empty {s : State} {i : Inst} (h : s.cbEmpty i = true) : s.queue i = [] := by
  apply List.eq_nil_of_length_eq_zero
  rw [length_queue]
  have := (isEmpty_iff (s.cbc i)).mp h
  simp [State.cbSize, this]

theorem toNat_size_succ {n : Count} (h : n.toNat < 255) : (n + 1#8).toNat = n.toNat + 1 := by
  rw [BitVec.toNat_add]
  simp only [BitVec.toNat_ofNat]
  omega

/-- A push adds its byte at the new end of its instance. -/
theorem queue_push {s t : State} {i : Inst} {v : Byte} (hv : s.cfg.valid = true) (h : s.cbPush i v = some t) :
    t.queue i = s.queue i ++ [v] := by
  have hf : s.cbFull i = false := by
    cases hf : s.cbFull i
    · rfl
    · rw [cbPush_eq, hf] at h; cases h
  have hlt : (s.cbSize i).toNat < s.cfg.cap i := (isFull_false_iff (Config.cap_mem hv i) _).mp hf
  have hle := Config.cap_le hv i
  have hsz := size_after_push h i
  rw [if_pos rfl] at hsz
  have hn : (t.cbSize i).toNat = (s.cbSize i).toNat + 1 := by rw [hsz, toNat_size_succ (by omega)]
  have hwr : (s.cbc i).wr = (s.cbc i).rd + BitVec.ofNat 8 (s.cbSize i).toNat := by
    rw [BitVec.ofNat_toNat, BitVec.setWidth_eq]
    show _ = (s.cbc i).rd + ((s.cbc i).wr - (s.cbc i).rd)
    rw [BitVec.sub_eq_add_neg, BitVec.add_comm (s.cbc i).wr, ← BitVec.add_assoc, ← BitVec.sub_eq_add_neg, BitVec.sub_self,
      BitVec.zero_add]
  have hrd : (t.cbc i).rd = (s.cbc i).rd := by rw [cbc_of_cbPush h]; simp
  unfold State.queue
  rw [hn, List.range_succ, List.map_append, cfg_of_cbPush h, hrd]
  congr 1
  · apply List.map_congr_left
    intro j hj
    rw [List.mem_range] at hj
    rw [readByte_cbPush h, if_neg]
    intro hh
    have h2 := hh.2
    rw [hwr] at h2
    exact slotOf_ne (Config.cap_mem hv i) _ hj (by omega) h2
  · simp only [List.map_cons, List.map_nil]
    rw [readByte_cbPush h, ← hwr, if_pos ⟨rfl, rfl⟩]

/-- A push leaves every other instance alone. -/
theorem queue_push_other {s t : State} {i j : Inst} {v : Byte} (h : s.cbPush i v = some t) (hj : j ≠ i) :
    t.queue j = s.queue j :=
  queue_congr (by rw [cbc_of_cbPush h, if_neg hj]) (cfg_of_cbPush h) (epoch_of_cbPush h)

/-- A pop takes its byte from the old end of its instance. -/
theorem queue_pop {s t : State} {i : Inst} {v : Byte} (h : s.cbPop i = some (v, t)) : s.queue i = v :: t.queue i := by
  have hne : s.cbEmpty i = false := by
    cases he : s.cbEmpty i
    · rfl
    · rw [cbPop_eq, he] at h; cases h
  have hc := cbc_of_cbPop h i
  rw [if_pos rfl] at hc
  have hz : s.cbSize i ≠ 0#8 := fun hz => by
    have := (isEmpty_iff (s.cbc i)).mpr hz
    rw [State.cbEmpty, this] at hne
    cases hne
  have hsz : t.cbSize i = s.cbSize i - 1#8 := by
    simp only [State.cbSize, Cbc.size, hc]
    rw [BitVec.sub_eq_add_neg, BitVec.sub_eq_add_neg, BitVec.sub_eq_add_neg, BitVec.neg_add, BitVec.sub_eq_add_neg,
      BitVec.add_assoc]
  have hn : (s.cbSize i).toNat = (t.cbSize i).toNat + 1 := by
    rw [hsz]
    generalize s.cbSize i = n at hz
    revert n; decide
  have hv : v = s.readByte (.cbMem i) (slotOf (s.cfg.cap i) (s.cbc i).rd) := by
    rw [cbPop_eq, hne] at h
    simp only [Bool.false_eq_true, if_false, Option.some.injEq, Prod.mk.injEq] at h
    exact h.1.symm
  unfold State.queue
  rw [hn, List.range_succ_eq_map, List.map_cons, List.map_map, hv]
  congr 1
  · simp
  · apply List.map_congr_left
    intro j _
    rw [readByte_cbPop h, cfg_of_cbPop h, hc]
    simp only [Function.comp, Nat.succ_eq_add_one]
    congr 2
    rw [BitVec.ofNat_add, BitVec.add_comm (BitVec.ofNat 8 j), BitVec.add_assoc]

/-- A pop leaves every other instance alone. -/
theorem queue_pop_other {s t : State} {i j : Inst} {v : Byte} (h : s.cbPop i = some (v, t)) (hj : j ≠ i) :
    t.queue j = s.queue j :=
  queue_congr (by rw [cbc_of_cbPop h, if_neg hj]) (cfg_of_cbPop h) (epoch_of_cbPop h)

/-- Several pushes add their bytes in order at the new end of their instance, and leave the others alone. -/
theorem queue_pushAll {s t : State} {i : Inst} {vs : List Byte} (hv : s.cfg.valid = true)
    (h : s.cbPushAll i vs = some t) (j : Inst) : t.queue j = if j = i then s.queue i ++ vs else s.queue j := by
  induction vs generalizing s with
  | nil =>
    cases h
    by_cases hj : j = i
    · subst hj; simp
    · simp [hj]
  | cons v rest ih =>
    rw [State.cbPushAll] at h
    split at h
    · cases h
    · next u hu =>
      rw [ih (by rw [cfg_of_cbPush hu]; exact hv) h]
      by_cases hj : j = i
      · subst hj; simp [queue_push hv hu]
      · simp [hj, queue_push_other hu hj]

/-- The end of an exchange leaves every instance alone (R255). -/
theorem queue_finishFrame (s : State) (k : ErrKind) (i : Inst) : (s.finishFrame k).queue i = s.queue i := by
  cases k <;> exact queue_congr (by cases i <;> rfl) rfl rfl

/-- An expiry leaves every instance alone. -/
theorem queue_expire (s : State) (w : Wait) (i : Inst) : (s.expire w).queue i = s.queue i := by
  cases w with
  | ses =>
    rw [State.expire]
    split
    · exact queue_congr (by cases i <;> rfl) rfl rfl
    · rfl
  | port p =>
    rw [State.expire]
    split
    · split
      · exact queue_congr (by cases i <;> rfl) rfl rfl
      · rfl
    · rfl

/-! ### The canonical form -/

/-- A write to the sample buffer keeps every space in the canonical form. -/
theorem canonical_sampleWrite {s : State} (h : CanonicalMemory s) (a : Nat) (v : Byte) :
    CanonicalMemory (s.sampleWrite a v) := by
  intro sp
  rcases sp with i | _ | _
  · exact h (.cbMem i)
  · exact h .cmdBuf
  · exact Memory.wf_write (h .sample) a v

/-- A write to the command buffer keeps every space in the canonical form. -/
theorem canonical_cmdBufWrite {s : State} (h : CanonicalMemory s) (k : Nat) (v : Byte) :
    CanonicalMemory (s.cmdBufWrite k v) := by
  intro sp
  rcases sp with i | _ | _
  · exact h (.cbMem i)
  · exact Memory.wf_write (h .cmdBuf) k v
  · exact h .sample

/-- A push keeps every space in the canonical form. -/
theorem canonical_cbPush {s t : State} {i : Inst} {v : Byte} (h : CanonicalMemory s) (hp : s.cbPush i v = some t) :
    CanonicalMemory t := by
  intro sp
  rcases sp with j | _ | _
  · simp only [State.mem]
    rw [cbc_of_cbPush hp]
    split
    · exact Memory.wf_write (h (.cbMem i)) _ _
    · exact h (.cbMem j)
  · rw [(state_of_cbPush hp).2]; simpa [State.mem] using h .cmdBuf
  · rw [(state_of_cbPush hp).2]; simpa [State.mem] using h .sample

/-- A pop keeps every space in the canonical form: it writes none. -/
theorem canonical_cbPop {s t : State} {i : Inst} {v : Byte} (h : CanonicalMemory s) (hp : s.cbPop i = some (v, t)) :
    CanonicalMemory t := by
  intro sp
  rcases sp with j | _ | _
  · simp only [State.mem]
    rw [cbc_of_cbPop hp]
    split
    · exact h (.cbMem i)
    · exact h (.cbMem j)
  · rw [(state_of_cbPop hp).2.2]; simpa [State.mem] using h .cmdBuf
  · rw [(state_of_cbPop hp).2.2]; simpa [State.mem] using h .sample

/-- The spaces of the state after reset are in the canonical form. -/
theorem canonical_reset : CanonicalMemory State.reset := by
  intro sp
  rcases sp with i | _ | _
  · cases i <;> rfl
  · rfl
  · rfl

/-! ### The other shared operations -/

/-- What an expiry does (R12, R36): nothing, or it sets the flag of the finite wait that is pending. -/
theorem expire_cases (s : State) (w : Wait) :
    s.expire w = s ∨
    (w = .ses ∧ s.sesWaitMs.isSome = true ∧ s.expire w = { s with sesExpired := true }) ∨
    ∃ p h, w = .port p ∧ s.pendOf p = some h ∧ (portWaitMs s.cfg h.word).isSome = true ∧
      s.expire w = s.setPend p (some { h with expired := true }) := by
  cases w with
  | ses =>
    rw [State.expire]
    split
    · next h => exact .inr (.inl ⟨rfl, h, rfl⟩)
    · exact .inl rfl
  | port p =>
    rw [State.expire]
    split
    · next h hp =>
      split
      · next hf => exact .inr (.inr ⟨p, h, rfl, hp, hf, rfl⟩)
      · exact .inl rfl
    · exact .inl rfl

/-- What driving the reset input does (R340): it is asserted, or released, or nothing changes. -/
theorem driveReset_cases (s : State) (level : Bool) :
    (level = true ∧ s.driveReset level = { s with rstAsserted := true }) ∨
    (level = false ∧ s.rstAsserted = true ∧
      s.driveReset level = { State.resetWith s.cfg with
        wireOut := s.wireOut, devReqs := s.devReqs, writeFwds := s.writeFwds, responses := s.responses, port := s.port,
        epoch := s.epoch + 1, inputs := s.inputs, tick := s.tick }) ∨
    (level = false ∧ s.rstAsserted = false ∧ s.driveReset level = s) := by
  cases level
  · cases h : s.rstAsserted
    · exact .inr (.inr ⟨rfl, rfl, by simp [State.driveReset, h]⟩)
    · exact .inr (.inl ⟨rfl, rfl, by simp [State.driveReset, h]⟩)
  · exact .inl ⟨rfl, rfl⟩

/-- The end of an exchange (R255): Success loops, every other kind begins the Stop push. -/
theorem finishFrame_cases (s : State) (k : ErrKind) :
    (k = .success ∧ s.finishFrame k = (s.setResult .success).enterWaitingForCommand) ∨
    (k ≠ .success ∧ s.finishFrame k = (s.setResult k).sesWait .pushStop) := by
  cases k
  · exact .inl ⟨rfl, rfl⟩
  all_goals exact .inr ⟨by simp, rfl⟩

/-- A link reset empties RX and TX and leaves EQ alone (R241). -/
theorem queue_linkReset (s : State) (i : Inst) : s.linkReset.queue i = if i = .eq then s.queue .eq else [] := by
  cases i with
  | eq => exact queue_congr rfl rfl rfl
  | rx => exact queue_of_empty rfl
  | tx => exact queue_of_empty rfl

end Sys2Proof.Machine
end

