-- ==== Sys2Proof/Tests/Slice0.lean ====
section
/-! SUPPORT. The package's own tests: the smoke tests of WellFormed, words written out from the encodings, one step on
small states with the values of 95_test_vectors.md (V1 to V124), and for every statement with hypotheses a concrete state
and operands that meet them. -/

namespace Sys2Proof.Tests

open Sys2Proof Sys2Proof.Machine

/-! ### WellFormed refuses an ill-formed term of each check -/

theorem test_wf_refuses_legal_opcode : (Instr.illegalOpcode 0x11#8).wf = false := by decide
theorem test_wf_refuses_opcode_with_a_row : (Instr.illegalOpcode 0x63#8).wf = false := by decide
theorem test_wf_accepts_unlisted_opcode : (Instr.illegalOpcode 0x0F#8).wf = true := by decide
theorem test_wf_refuses_nack_as_other : (Instr.sysOther 0#3 2#3).wf = false := by decide
theorem test_wf_refuses_short_reserved_length : (Instr.cmdLenReserved 5#3 0#3).wf = false := by decide
theorem test_wf_refuses_long_select : (Instr.cmdSelect 6#3).wf = false := by decide
theorem test_wf_refuses_long_write : (Instr.cmdWrite 7#3).wf = false := by decide
theorem test_wf_refuses_long_other : (Instr.cmdOther 6#3 0#3).wf = false := by decide
theorem test_wf_refuses_select_as_other : (Instr.cmdOther 0#3 3#3).wf = false := by decide
theorem test_wf_refuses_write_as_other : (Instr.cmdOther 0#3 4#3).wf = false := by decide

/-! ### Words written out from the encodings: R80, R84, R90, R95, R102 -/

/-- Each word decodes to its instruction. -/
def decodesTo (l : List (CommandWord × Instr)) : Bool := l.all fun p => decodeCommand p.1 == p.2

/-- Each frame byte decodes to its instruction. -/
def framesTo (l : List (Byte × Instr)) : Bool := l.all fun p => decodeFrame p.1 == p.2

/-- Each event byte decodes to its instruction. -/
def eventsTo (l : List (Byte × Instr)) : Bool := l.all fun p => decodeEvent p.1 == p.2

theorem test_decode_circular_buffer_words : decodesTo [
    (0x111234#24, .cbPushRx 0x12#8), (0x161234#24, .cbPopTx), (0x181234#24, .cbSizeEq), (0x191234#24, .cbSizeRx),
    (0x1A1234#24, .cbSizeTx), (0x1C1234#24, .cbEmptyEq), (0x1D1234#24, .cbEmptyRx), (0x1E1234#24, .cbEmptyTx),
    (0x201234#24, .cbFullEq), (0x211234#24, .cbFullRx), (0x221234#24, .cbFullTx), (0x241234#24, .cbDropsEq),
    (0x251234#24, .cbDropsRx), (0x261234#24, .cbDropsTx)] = true := by decide

theorem test_decode_checksum_words : decodesTo [
    (0x301234#24, .ckInit), (0x311234#24, .ckSeed 0x12#8), (0x321234#24, .ckFold 0x12#8), (0x331234#24, .ckRead),
    (0x341234#24, .ckCheck 0x12#8)] = true := by decide

theorem test_decode_frame_codec_words : decodesTo [
    (0x401234#24, .frMakeSys 0x12#8 0x34#8), (0x411234#24, .frMakeCmd 0x12#8 0x34#8),
    (0x421234#24, .frMakeInfo 0x12#8 0x34#8), (0x431234#24, .frMakeData 0x12#8 0x34#8),
    (0x441234#24, .frClass 0x12#8), (0x451234#24, .frContent 0x12#8), (0x461234#24, .frLength 0x12#8)] = true := by decide

theorem test_decode_event_codec_words : decodesTo [
    (0x501234#24, .evMakeData 0x12#8), (0x511234#24, .evMakeScale 0x12#8), (0x521234#24, .evMakeMode 0x12#8),
    (0x531234#24, .evMakeReset 0x12#8), (0x541234#24, .evMakeStart 0x12#8), (0x551234#24, .evMakeStop 0x12#8),
    (0x561234#24, .evMakeRequest 0x12#8), (0x571234#24, .evMakeEeprom 0x12#8), (0x581234#24, .evKind 0x12#8),
    (0x591234#24, .evInfo 0x12#8)] = true := by decide

theorem test_decode_event_queue_words : decodesTo [
    (0x601234#24, .eqTryPush 0x12#8), (0x611234#24, .eqPush 0x12#8 0x34#8)] = true := by decide

theorem test_decode_session_words : decodesTo [
    (0x701234#24, .sendData0 0x12#8 0x34#8), (0x711234#24, .sendData1 0x12#8 0x34#8),
    (0x721234#24, .sendData2 0x12#8 0x34#8), (0x731234#24, .sendData3 0x12#8 0x34#8),
    (0x741234#24, .sendData4 0x12#8 0x34#8), (0x751234#24, .sendData5 0x12#8 0x34#8),
    (0x761234#24, .sendData6 0x12#8 0x34#8), (0x771234#24, .sendData7 0x12#8 0x34#8),
    (0x781234#24, .sbWrite 0x12#8 0x34#8), (0x791234#24, .sbRead 0x12#8), (0x7A1234#24, .sesState),
    (0x7B1234#24, .sesResult), (0x7C1234#24, .linkRead), (0x7D1234#24, .faultRead)] = true := by decide

theorem test_decode_refused_words : decodesTo [
    (0x101234#24, .illegal10), (0x121234#24, .illegal12), (0x131234#24, .illegal13), (0x141234#24, .illegal14),
    (0x151234#24, .illegal15), (0x171234#24, .illegal17), (0x1B1234#24, .illegal1B), (0x1F1234#24, .illegal1F),
    (0x231234#24, .illegal23), (0x271234#24, .illegal27), (0x621234#24, .illegal62), (0x631234#24, .illegal63)] = true := by decide

theorem test_decode_unlisted_words : decodesTo [
    (0x000000#24, .illegalOpcode 0x00#8), (0x0F1234#24, .illegalOpcode 0x0F#8), (0x281234#24, .illegalOpcode 0x28#8),
    (0x351234#24, .illegalOpcode 0x35#8), (0x471234#24, .illegalOpcode 0x47#8), (0x5A1234#24, .illegalOpcode 0x5A#8),
    (0x641234#24, .illegalOpcode 0x64#8), (0x7E1234#24, .illegalOpcode 0x7E#8), (0xFF1234#24, .illegalOpcode 0xFF#8)]
    = true := by decide

theorem test_decode_ack : decodeAck 0x04#8 = .ok .waitAckAck ∧ decodeAck 0x02#8 = .error (.notAcknowledge 0x02#8) :=
  ⟨rfl, rfl⟩

theorem test_decode_frames : framesTo [
    (0x02#8, .sysNack), (0x00#8, .sysOther 0#3 0#3), (0x04#8, .sysOther 0#3 4#3), (0x3F#8, .sysOther 7#3 7#3),
    (0x70#8, .cmdLenReserved 6#3 0#3), (0x7B#8, .cmdLenReserved 7#3 3#3), (0x43#8, .cmdSelect 0#3),
    (0x6B#8, .cmdSelect 5#3), (0x44#8, .cmdWrite 0#3), (0x4C#8, .cmdWrite 1#3), (0x40#8, .cmdOther 0#3 0#3),
    (0x49#8, .cmdOther 1#3 1#3), (0x52#8, .cmdOther 2#3 2#3), (0x80#8, .infoFrame 0#3 0#3),
    (0x93#8, .infoFrame 2#3 3#3), (0xC0#8, .dataFrame 0#3 0#3), (0xDD#8, .dataFrame 3#3 5#3)] = true := by decide

theorem test_decode_events : eventsTo [
    (0x03#8, .eventData 3#5), (0x25#8, .eventScale 5#5), (0x42#8, .eventMode 2#5), (0x60#8, .eventReset 0#5),
    (0x80#8, .eventStart 0#5), (0xA0#8, .eventStop 0#5), (0xC5#8, .eventRequest 5#5), (0xE1#8, .eventEeprom 1#5),
    (0x1F#8, .eventData 31#5)] = true := by decide

/-- The opcode table's numbers (log entry 11). -/
theorem test_table_words :
    decodeTableWord 24 0x610342 = some (.eqPush 0x03#8 0x42#8) ∧ decodeTableWord 8 0x04 = some .waitAckAck ∧
    decodeTableWord 8 0x43 = some (.cmdSelect 0#3) ∧ decodeTableWord 8 0xE0 = some (.eventEeprom 0#5) ∧
    decodeTableWord 32 0 = none := by decide

/-! ### Small states -/

/-- An instance that holds the bytes `bs`, pushed since reset. -/
def holding (bs : List Byte) : Cbc where
  rd := 0#8
  wr := BitVec.ofNat 8 bs.length
  drop := 0#8
  mem := (List.range bs.length).zip bs

/-- SES in WaitingForCommand, at the wait for a frame byte, with the link on and RX holding `bs`. -/
def waiting (bs : List Byte) : State :=
  { State.reset with sessState := 5#3, sessPhase := .getFrame, link := 3#2, cbRx := holding bs }

/-- SES inside the command of frame byte `f`, at `pt`, after reading a payload of `n` bytes `p`, RX holding `bs`. -/
def inCommand (f : Byte) (pt : CmdPoint) (p : List Byte) (bs : List Byte) : State :=
  { waiting bs with
    sessPhase := .command f pt, cmdLen := (payloadLength f).setWidth 6, cmdBuf := (List.range p.length).zip p,
    rdCk := checksum (0xFF#8 ^^^ f) p }

/-- The event queue full, for a capacity of 8. -/
def eqFull (s : State) : State := { s with cbEq := holding [1#8, 2#8, 3#8, 4#8, 5#8, 6#8, 7#8, 8#8] }

/-- The state after the next state of one step that takes `x`; the state itself where there is none. -/
def after (x : Stimulus) (s : State) : State :=
  match step { s with inputs := [x] } with
  | .next t => t
  | _ => s

/-- One step gives a next state. -/
def steps (x : Stimulus) (s : State) : Bool :=
  match step { s with inputs := [x] } with
  | .next _ => true
  | _ => false

/-- The response words and FAULT after DEV issues `w` in `s`. -/
def answer (s : State) (w : CommandWord) : List ResponseWord × Byte :=
  let t := after (.issue .dev w) s
  (t.responses.map fun r => r.word, t.fault)

/-- The response of each word, each in one step from `s`, with no fault. -/
def answers (s : State) (l : List (CommandWord × ResponseWord)) : Bool := l.all fun p => answer s p.1 == ([p.2], s.fault)

/-! ### One step on small states, with the vectors of 95_test_vectors.md -/

theorem test_frame_codec_vectors : answers State.reset [
    (0x410100#24, 0x0040#16), (0x410201#24, 0x0049#16), (0x410402#24, 0x0052#16), (0x410103#24, 0x0043#16),
    (0x430805#24, 0x00DD#16), (0x402007#24, 0x002F#16), (0x420109#24, 0x0081#16), (0x412007#24, 0x006F#16),
    (0x44C300#24, 0x00C0#16), (0x443F00#24, 0x0000#16), (0x455200#24, 0x0002#16), (0x45FF00#24, 0x0007#16),
    (0x465200#24, 0x0004#16), (0x460000#24, 0x0001#16), (0x463000#24, 0x0040#16), (0x46FF00#24, 0x0080#16),
    (0x411000#24, 0x0060#16)] = true := by decide

theorem test_make_frame_faults :
    answer State.reset 0x410300#24 = ([0xFE00#16], 0x02#8) ∧ answer State.reset 0x410000#24 = ([0xFE00#16], 0x02#8) ∧
    answer State.reset 0x414000#24 = ([0xFE00#16], 0x02#8) ∧ answer State.reset 0x436F00#24 = ([0xFE00#16], 0x02#8) := by
  decide

theorem test_checksum_vectors :
    answers { State.reset with ckAcc := 0xBE#8 } [
      (0x300000#24, 0x00FF#16), (0x32BE00#24, 0x0000#16), (0x34BE00#24, 0x0001#16), (0x34BF00#24, 0x0000#16),
      (0x31BC00#24, 0x00BC#16), (0x330000#24, 0x00BE#16)] = true ∧
    answer State.reset 0x324300#24 = ([0x00BC#16], 0x00#8) := by decide

theorem test_fold_updates_ck_acc : (after (.issue .dev 0x324300#24) State.reset).ckAcc = 0xBC#8 := by decide

theorem test_reset_reads : answers State.reset [
    (0x1E0000#24, 0x0001#16), (0x180000#24, 0x0000#16), (0x200000#24, 0x0000#16), (0x160000#24, 0x0100#16),
    (0x110400#24, 0x0500#16), (0x330000#24, 0x00FF#16), (0x7A0000#24, 0x0000#16), (0x7B0000#24, 0x0007#16),
    (0x7C0000#24, 0x0000#16), (0x7D0000#24, 0x0000#16), (0x260000#24, 0x0000#16), (0x700001#24, 0x0400#16)]
    = true := by decide

theorem test_push_rx : answer (waiting []) 0x110400#24 = ([0x0000#16], 0x00#8) ∧
    (after (.issue .rxi 0x110400#24) (waiting [])).queue .rx = [0x04#8] := by decide

theorem test_push_rx_full_drops_and_saturates :
    let s := { waiting [0x11#8] with cfg := { Config.vectors with capRx := 1 } }
    let d := { s with cbRx := { s.cbRx with drop := 0xFF#8 } }
    answer s 0x117700#24 = ([0x0200#16], 0x00#8) ∧ (after (.issue .rxi 0x117700#24) s).cbRx.drop = 1#8 ∧
    (after (.issue .rxi 0x117700#24) s).queue .rx = [0x11#8] ∧
    (after (.issue .rxi 0x117700#24) d).cbRx.drop = 0xFF#8 := by decide

theorem test_pop_tx :
    let t := after (.issue .txi 0x160000#24) { State.reset with cbTx := holding [0xC9#8, 0x34#8] }
    t.responses = [⟨.txi, 0x00C9#16⟩] ∧ t.wireOut = [0xC9#8] ∧ t.queue .tx = [0x34#8] := by decide

/-- The counter-wrap vector of 2.3, step 4: the slot and the count after the wrap. -/
theorem test_try_push_wraps :
    let s := { State.reset with
      cfg := { Config.vectors with capEq := 4 }
      cbEq := { rd := 0xFE#8, wr := 0x01#8, drop := 0#8, mem := [(0, 3#8), (2, 1#8), (3, 2#8)] } }
    let t := after (.issue (.pin 0) 0x600400#24) s
    t.cbEq.wr = 0x02#8 ∧ t.queue .eq = [1#8, 2#8, 3#8, 4#8] ∧ answer t 0x200000#24 = ([0x0000#16, 0x0001#16], 0x00#8) ∧
    answer t 0x600500#24 = ([0x0000#16, 0x0200#16], 0x00#8) := by decide

/-- The largest capacity: 128 events queued. -/
theorem test_full_at_largest_capacity :
    let s := { State.reset with cfg := { Config.vectors with capEq := 128 }, cbEq := { Cbc.reset with wr := 0x80#8 } }
    answers s [(0x200000#24, 0x0001#16), (0x180000#24, 0x0080#16), (0x1C0000#24, 0x0000#16)] = true := by decide

theorem test_drops_read : answers { State.reset with cbRx := { Cbc.reset with drop := 0x5A#8 } } [
    (0x250000#24, 0x005A#16), (0x240000#24, 0x0000#16), (0x210000#24, 0x0000#16), (0x220000#24, 0x0000#16),
    (0x190000#24, 0x0000#16), (0x1A0000#24, 0x0000#16), (0x1D0000#24, 0x0001#16)] = true := by decide

theorem test_event_codec_vectors : answers State.reset [
    (0x520200#24, 0x0042#16), (0x522200#24, 0x0042#16), (0x573F00#24, 0x00FF#16), (0x500300#24, 0x0003#16),
    (0x540000#24, 0x0080#16), (0x550000#24, 0x00A0#16), (0x510500#24, 0x0025#16), (0x530000#24, 0x0060#16),
    (0x560500#24, 0x00C5#16), (0x58A000#24, 0x0005#16), (0x581F00#24, 0x0000#16), (0x59FF00#24, 0x001F#16)]
    = true := by decide

theorem test_eq_push_has_room :
    let t := after (.issue .dev 0x614200#24) State.reset
    t.responses = [⟨.dev, 0x0000#16⟩] ∧ t.queue .eq = [0x42#8] ∧ t.pendOf .dev = none := by decide

theorem test_eq_push_holds_then_times_out :
    let h := after (.issue .dev 0x610305#24) (eqFull State.reset)
    let x := after (.expire (.port .dev)) h
    let t := after (.resume .dev) x
    h.responses = [] ∧ h.pendOf .dev = some ⟨0x610305#24, false⟩ ∧ t.responses = [⟨.dev, 0x0300#16⟩] ∧
    t.cbEq.drop = 0#8 ∧ (after (.resume .dev) h).responses = [] := by decide

theorem test_illegal_opcodes_fault :
    [0x000000#24, 0xFF1234#24, 0x100000#24, 0x120000#24, 0x130000#24, 0x140000#24, 0x150000#24, 0x170000#24,
     0x1B0000#24, 0x1F0000#24, 0x230000#24, 0x270000#24, 0x620000#24, 0x630000#24].all
      (fun w => answer State.reset w == ([0xFF00#16], 0x01#8)) = true := by decide

theorem test_fault_read : answer { State.reset with fault := 0x03#8 } 0x7D0000#24 = ([0x0003#16], 0x03#8) := by decide

theorem test_sample_write_read :
    (after (.issue .dev 0x781134#24) State.reset).readByte .sample 0x11 = 0x34#8 ∧
    answer (after (.issue .dev 0x781134#24) State.reset) 0x791100#24 = ([0x0000#16, 0x0034#16], 0x00#8) := by decide

theorem test_sample_bounds : answer State.reset 0x794000#24 = ([0xFE00#16], 0x02#8) ∧
    answer State.reset 0x784000#24 = ([0xFE00#16], 0x02#8) := by decide

/-- The state of V73. -/
def sending : State := { waiting [] with sample := [(0x11, 0x34#8), (0x12, 0x12#8)] }

theorem test_send_data :
    let t := after (.issue .dev 0x711002#24) sending
    t.responses = [⟨.dev, 0x0000#16⟩] ∧ t.queue .tx = [0xC9#8, 0x34#8, 0x12#8, 0x10#8] ∧
    t.sample = [(0x10, 0xC9#8), (0x11, 0x34#8), (0x12, 0x12#8), (0x13, 0x10#8)] := by decide

theorem test_send_data_operands_first : answer State.reset 0x700003#24 = ([0xFE00#16], 0x02#8) ∧
    answer State.reset 0x772020#24 = ([0xFE00#16], 0x02#8) := by decide

theorem test_send_data_holds :
    let t := after (.issue .dev 0x711002#24) { sending with cbTx := { Cbc.reset with wr := 61#8 } }
    t.responses = [] ∧ t.pendOf .dev = some ⟨0x711002#24, false⟩ ∧ t.sample = sending.sample := by decide

theorem test_send_data_modes :
    [(0x701001#24, 0xC0#8), (0x721001#24, 0xC2#8), (0x731001#24, 0xC3#8), (0x741001#24, 0xC4#8), (0x751001#24, 0xC5#8),
     (0x761001#24, 0xC6#8), (0x771001#24, 0xC7#8)].all
      (fun p => ((after (.issue .dev p.1) sending).queue .tx).take 2 == [p.2, 0x34#8]) = true := by decide

/-! ### The session and the dispatcher -/

/-- The result and the wait point after one transition of SES. -/
def sesAfter (s : State) : BitVec 3 × SesPhase := ((after .ses s).sesResult, (after .ses s).sessPhase)

theorem test_single_byte_frames :
    sesAfter (waiting [0x02#8]) = (0#3, .getFrame) ∧ sesAfter (waiting [0x00#8]) = (4#3, .pushStop) ∧
    sesAfter (waiting [0x04#8]) = (4#3, .pushStop) ∧ sesAfter (waiting [0x73#8]) = (3#3, .pushStop) ∧
    sesAfter (waiting [0x80#8]) = (4#3, .pushStop) ∧ sesAfter (waiting [0xC0#8]) = (0#3, .getFrame) := by decide

theorem test_select_starts_reading :
    let t := after .ses (waiting [0x43#8])
    t.cmdLen = 1#6 ∧ t.rdCk = 0xBC#8 ∧ t.sessPhase = .command 0x43#8 (.payload 0) ∧ t.queue .rx = [] := by decide

theorem test_reserved_length_reads_nothing : (after .ses (waiting [0x73#8, 0x55#8])).queue .rx = [0x55#8] := by decide

theorem test_payload_byte :
    let t := after .ses (inCommand 0x43#8 (.payload 0) [] [0x02#8])
    t.cmdBuf = [(0, 0x02#8)] ∧ t.rdCk = 0xBE#8 ∧ t.sessPhase = .command 0x43#8 .checksum := by decide

theorem test_select_good_and_bad :
    sesAfter (inCommand 0x43#8 .checksum [0x02#8] [0xBE#8]) = (7#3, .command 0x43#8 (.push 0x42#8)) ∧
    sesAfter (inCommand 0x43#8 .checksum [0x03#8] [0xBE#8]) = (1#3, .pushStop) ∧
    sesAfter (inCommand 0x43#8 .checksum [0x02#8] [0xBF#8]) = (1#3, .pushStop) := by decide

theorem test_other_commands :
    sesAfter (inCommand 0x49#8 .checksum [0x00#8, 0x01#8] [0xB7#8]) = (4#3, .pushStop) ∧
    sesAfter (inCommand 0x49#8 .checksum [0x00#8, 0x01#8] [0xB6#8]) = (1#3, .pushStop) := by decide

theorem test_write_resets_or_forwards :
    sesAfter (inCommand 0x44#8 .checksum [0x11#8] [0xAA#8]) = (7#3, .command 0x44#8 (.push 0x60#8)) ∧
    (after .ses (inCommand 0x4C#8 .checksum [0x20#8, 0x05#8] [0x96#8])).writeForward = some [0x20#8, 0x05#8] ∧
    (after .ses (inCommand 0x4C#8 .checksum [0x20#8, 0x05#8] [0x96#8])).writeFwds = [[0x20#8, 0x05#8]] := by decide

/-- R353: a DEV held in an infinite EQ_PUSH acknowledges nothing. -/
theorem test_held_dev_does_not_acknowledge :
    let s := (inCommand 0x4C#8 .forward [0x20#8, 0x05#8] []).setPend .dev (some ⟨0x610300#24, false⟩)
    (after .ackForward s).sessPhase = .command 0x4C#8 .forward ∧
    (after .ackRequest { s with dspPhase := .waitAck }).dspPhase = .waitAck := by decide

theorem test_forward_is_acknowledged :
    let t := after .ackForward (inCommand 0x4C#8 .forward [0x20#8, 0x05#8] [])
    t.sesResult = 0#3 ∧ t.sessPhase = .getFrame ∧ t.writeForward = none := by decide

theorem test_select_pushes_its_event :
    let t := after .ses (inCommand 0x43#8 (.push 0x42#8) [0x02#8] [])
    t.queue .eq = [0x42#8] ∧ t.sesResult = 0#3 ∧ t.sessPhase = .getFrame := by decide

/-- V104: a CMD frame that falls silent before its payload byte or its checksum byte is Timeout. -/
theorem test_silent_command_times_out :
    sesAfter { inCommand 0x43#8 (.payload 0) [] [] with sesExpired := true } = (2#3, .pushStop) ∧
    sesAfter { inCommand 0x43#8 .checksum [0x02#8] [] with sesExpired := true } = (2#3, .pushStop) := by decide

theorem test_heartbeat_timeout :
    let t := after .ses { waiting [] with sesExpired := true }
    t.sesResult = 2#3 ∧ t.sessPhase = .pushStop ∧ (after .ses t).queue .eq = [0xA0#8] ∧ (after .ses t).sessState = 1#3 ∧
    (after .ses t).link = 2#2 := by decide

/-- SES waiting for the acknowledgement, RX holding `bs`. -/
def acking (bs : List Byte) : State :=
  { State.reset with sessState := 3#3, sessPhase := .getAck, link := 1#2, cbRx := holding bs }

theorem test_ack :
    let t := after .ses (acking [0x04#8])
    t.sesResult = 0#3 ∧ t.sessState = 4#3 ∧ t.link = 3#2 ∧ t.sessPhase = .sleepSpeed := by decide

theorem test_not_ack :
    let t := after .ses (acking [0x02#8])
    t.sesResult = 4#3 ∧ t.sessState = 0#3 ∧ t.link = 0#2 ∧ t.queue .eq = [] := by decide

/-- The queue, and the device request, after DSP pops one event. -/
def dspAfter (e : Byte) : Option Byte × List (BitVec 3 × BitVec 5) :=
  let t := after .dsp { State.reset with cbEq := holding [e] }
  (t.devRequest, t.devReqs)

theorem test_dispatcher_vectors :
    [(0x03#8, 0#3, 3#5), (0x25#8, 1#3, 5#5), (0x42#8, 2#3, 2#5), (0x60#8, 3#3, 0#5), (0x80#8, 4#3, 0#5),
     (0xA0#8, 5#3, 0#5), (0xE1#8, 7#3, 1#5), (0x1F#8, 0#3, 31#5)].all
      (fun p => dspAfter p.1 == (some p.1, [p.2])) = true ∧ dspAfter 0xC5#8 = (none, []) := by decide

/-- Start and Init, steps 1 to 3 of program P3. -/
theorem test_handshake_begins :
    let a := after .ses State.reset
    let b := after .ses (after (.expire .ses) a)
    let c := after .ses b
    a.sessPhase = .sleepRestart ∧ after .ses a = a ∧ b.sessState = 2#3 ∧ b.link = 1#2 ∧ c.queue .tx = [0x40#8] ∧
    c.sessPhase = .txPut 1 := by decide

theorem test_bad_state : (after .ses { State.reset with sessState := 6#3 }).fault = 0x04#8 ∧
    (after .ses { State.reset with sessState := 6#3 }).sessPhase = .stuck := by decide

theorem test_reset_input :
    let a := after (.resetPin true) { waiting [0x02#8] with ckAcc := 0x5A#8, wireOut := [0x11#8] }
    let t := after (.resetPin false) a
    (after .ses a).sessPhase = .getFrame ∧ t.sessPhase = .entry ∧ t.ckAcc = 0xFF#8 ∧ t.wireOut = [0x11#8] ∧
    t.epoch = 1 := by decide

/-! ### withFetchWord -/

/-- The next step after `withFetchWord` runs a command word, an acknowledgement, a frame, and an event. -/
theorem test_with_fetch_word :
    (match step (State.reset.withFetchWord 24 0x410103) with
      | .next t => t.responses == [⟨.dev, 0x0043#16⟩]
      | _ => false) = true ∧
    (match step (State.reset.withFetchWord 8 0x04) with
      | .next t => t.sessPhase == .sleepSpeed
      | _ => false) = true ∧
    (match step (State.reset.withFetchWord 8 0x43) with
      | .next t => t.sessPhase == .command 0x43#8 (.payload 0)
      | _ => false) = true ∧
    (match step (State.reset.withFetchWord 8 0xE0) with
      | .next t => t.devReqs == [(7#3, 0#5)]
      | _ => false) = true := by decide

/-! ### Witnesses: the hypotheses of each statement are met -/

/-- A full RX of capacity 1 with receive on. -/
def rxFull : State := { waiting [0x11#8] with cfg := { Config.vectors with capRx := 1 } }

/-- TX holding 62 of 64 bytes: room for no message. -/
def txCrowded : State := { waiting [] with cbTx := { Cbc.reset with wr := 62#8 } }

/-- DEV's port holding `EQ_PUSH 3, b`, its flag `x`, in `s`. -/
def held (b : Byte) (x : Bool) (s : State) : State := s.setPend .dev (some ⟨mkCommand 0x61#8 0x03#8 b, x⟩)

theorem witness_DecodeEncodeAgree : (Instr.cmdSelect 5#3).wf = true ∧ (Instr.illegalOpcode 0xFF#8).wf = true := by decide

/-- A row that reads both operands, one that reads A only, and one that reads neither. -/
theorem witness_CommandDecoderTotal :
    (opcOf 0x611234#24 ∈ readsA ∧ opcOf 0x611234#24 ∈ readsB) ∧ (opcOf 0x321234#24 ∈ readsA ∧ opcOf 0x321234#24 ∉ readsB) ∧
    (opcOf 0x161234#24 ∉ readsA ∧ opcOf 0x161234#24 ∉ readsB) := by decide

theorem witness_CbPushRxResult_disabled : State.reset.link.getLsbD 0 = false := by decide
theorem witness_CbPushRxResult_full : rxFull.link.getLsbD 0 = true ∧ rxFull.cbFull .rx = true := by decide
theorem witness_CbPushRxResult_room : (waiting []).link.getLsbD 0 = true ∧ (waiting []).cbFull .rx = false := by decide

theorem witness_CbPopTxResult_empty : State.reset.cbEmpty .tx = true := by decide
theorem witness_CbPopTxResult_byte : txCrowded.cbEmpty .tx = false := by decide

theorem witness_CbFullAndDropsRead : State.reset.cfg.valid = true := by decide

/-- Eight bytes into EQ of capacity 8, with the counters about to wrap. -/
theorem witness_PushThenPopIsFifo :
    let s := { State.reset with cbEq := { Cbc.reset with rd := 0xFC#8, wr := 0xFC#8 } }
    s.cfg.valid = true ∧ s.cbEmpty .eq = true ∧ [1#8, 2#8, 3#8, 4#8, 5#8, 6#8, 7#8, 8#8].length ≤ s.cfg.cap .eq := by
  decide

/-- A step that DSP takes with an event queued. -/
def popping : State := { State.reset with cbEq := holding [0x42#8, 0x03#8], inputs := [.dsp] }

/-- For EveryStepKeepsFifoOrder, FaultBitsStick, RequestsFollowQueueOrder and ConfigurationIsConstant. -/
theorem witness_step : ∃ t, step popping = .next t ∧ t.epoch = popping.epoch ∧ t.queue .eq = [0x03#8] :=
  ⟨after .dsp popping, rfl, rfl, by decide⟩

theorem witness_RequestsFollowQueueOrder_recorded :
    popping.dspPhase = .waitEvent ∧ ∃ t, step popping = .next t ∧ t.devReqs = [(2#3, 2#5)] :=
  ⟨rfl, after .dsp popping, rfl, by decide⟩
theorem witness_RequestsFollowQueueOrder_consumed :
    let s := { popping with cbEq := holding [0xC1#8, 0x03#8] }
    ∃ t, step s = .next t ∧ t.devReqs = [] ∧ s.queue .eq = 0xC1#8 :: t.queue .eq := ⟨_, rfl, by decide⟩

theorem witness_WireOutputFollowsTx :
    let s := { State.reset with cbTx := holding [0x42#8], inputs := [.issue .txi 0x160000#24] }
    s.cbEmpty .tx = false ∧ ∃ t, step s = .next t ∧ t.wireOut = [0x42#8] := ⟨by decide, _, rfl, by decide⟩

theorem bufferInv_popping : BufferInv popping := by
  refine ⟨by decide, ?_, by decide, ?_⟩
  · intro i; cases i <;> decide
  · intro i; cases i <;> decide

theorem witness_EveryStepKeepsBuffersLegal : BufferInv popping ∧ ∃ t, step popping = .next t :=
  ⟨bufferInv_popping, _, rfl⟩

theorem witness_NeverEmptyAndFull : State.reset.cfg.valid = true := by decide

theorem witness_EqTryPushResult_full : (eqFull State.reset).cbFull .eq = true := by decide
theorem witness_EqTryPushResult_room : State.reset.cbFull .eq = false := by decide

theorem witness_EqPushResult_room : State.reset.cbFull .eq = false := by decide
theorem witness_EqPushResult_timeout :
    let s := { held 1#8 true (eqFull State.reset) with port := .dev }
    s.cbFull .eq = true ∧ (1#8 : Byte) ≠ 0#8 ∧ s.portExpired = true := by decide
theorem witness_EqPushResult_hold : (eqFull State.reset).cbFull .eq = true ∧ (eqFull State.reset).portExpired = false := by
  decide

theorem witness_HeldPushTransition_room :
    let s := held 5#8 false State.reset
    s.cfg.valid = true ∧ s.rstAsserted = false ∧ s.pendOf .dev = some ⟨mkCommand 0x61#8 0x03#8 5#8, false⟩ ∧
    s.cbFull .eq = false := by decide
theorem witness_HeldPushTransition_expired :
    let s := held 1#8 true (eqFull State.reset)
    s.cfg.valid = true ∧ s.rstAsserted = false ∧ s.pendOf .dev = some ⟨mkCommand 0x61#8 0x03#8 1#8, true⟩ ∧
    s.cbFull .eq = true := by decide
theorem witness_HeldPushTransition_waits :
    let s := held 0#8 false (eqFull State.reset)
    s.cfg.valid = true ∧ s.rstAsserted = false ∧ s.pendOf .dev = some ⟨mkCommand 0x61#8 0x03#8 0#8, false⟩ ∧
    s.cbFull .eq = true := by decide

theorem witness_ExpirySetsFiniteWaitsOnly :
    State.reset.sessPhase = .entry ∧ (waiting []).sessPhase = .getFrame ∧
    (inCommand 0x43#8 .checksum [0x02#8] []).sessPhase = .command 0x43#8 .checksum ∧
    State.reset.rstAsserted = false ∧ State.reset.pendOf .dev = none ∧
    (held 0#8 false (eqFull State.reset)).pendOf .dev = some ⟨mkCommand 0x61#8 0x03#8 0#8, false⟩ ∧
    (held 0xFF#8 false (eqFull State.reset)).pendOf .dev = some ⟨mkCommand 0x61#8 0x03#8 0xFF#8, false⟩ ∧
    (txCrowded.setPend .dev (some ⟨mkCommand 0x77#8 0#8 1#8, false⟩)).pendOf .dev
      = some ⟨mkCommand 0x77#8 0#8 1#8, false⟩ := by decide

/-- The lengths at the ends of the range, and one beside each. -/
theorem witness_FrMakeResult :
    (1#8 : Byte).toNat = 2 ^ 0 ∧ (32#8 : Byte).toNat = 2 ^ 5 ∧ (∀ k : Nat, k ≤ 5 → (0#8 : Byte).toNat ≠ 2 ^ k) ∧
    (∀ k : Nat, k ≤ 5 → (64#8 : Byte).toNat ≠ 2 ^ k) := by
  refine ⟨by decide, by decide, ?_, ?_⟩ <;>
  · intro k hk
    have : k = 0 ∨ k = 1 ∨ k = 2 ∨ k = 3 ∨ k = 4 ∨ k = 5 := by omega
    rcases this with h | h | h | h | h | h <;> subst h <;> decide

theorem witness_FrameCodecRoundTrip : (5 : Nat) ≤ 5 ∧ (7#8 : Byte).toNat ≤ 7 := by decide

/-- The SELECT message 43 02 BE with its payload byte changed to 03. -/
theorem witness_OneCorruptByteIsCaught :
    checksum 0xFF#8 (0x43#8 :: [0x02#8] ++ [0xBE#8]) = 0#8 ∧ (0 : Nat) < ([0x02#8] ++ [0xBE#8]).length ∧
    ([0x02#8] ++ [0xBE#8])[0]? ≠ some 0x03#8 := by decide

theorem witness_SampleBufferResult :
    (0x3F#8 : Byte).toNat < State.reset.cfg.sampleSize ∧ State.reset.cfg.sampleSize ≤ (0x40#8 : Byte).toNat := by decide

theorem witness_SendDataDoesNotSend_size : ∀ k : Nat, k ≤ 5 → (3#8 : Byte).toNat ≠ 2 ^ k := by
  intro k hk
  have : k = 0 ∨ k = 1 ∨ k = 2 ∨ k = 3 ∨ k = 4 ∨ k = 5 := by omega
  rcases this with h | h | h | h | h | h <;> subst h <;> decide
theorem witness_SendDataDoesNotSend_range : State.reset.cfg.sampleSize < (0x1F#8 : Byte).toNat + (32#8 : Byte).toNat + 2 := by
  decide
theorem witness_SendDataDoesNotSend_refused :
    (32#8 : Byte).toNat = 2 ^ 5 ∧ (0x1E#8 : Byte).toNat + (32#8 : Byte).toNat + 2 ≤ State.reset.cfg.sampleSize ∧
    State.reset.sessState ≠ 5#3 := by decide
theorem witness_SendDataDoesNotSend_held :
    (1#8 : Byte).toNat = 2 ^ 0 ∧ (0#8 : Byte).toNat + (1#8 : Byte).toNat + 2 ≤ txCrowded.cfg.sampleSize ∧
    txCrowded.sessState = 5#3 ∧ txCrowded.cfg.capTx - (txCrowded.cbTx.wr - txCrowded.cbTx.rd).toNat < (1#8 : Byte).toNat + 2 := by
  decide

theorem witness_SendDataSendsMessage :
    sending.cfg.valid = true ∧ (2#8 : Byte).toNat = 2 ^ 1 ∧
    (0x10#8 : Byte).toNat + (2#8 : Byte).toNat + 2 ≤ sending.cfg.sampleSize ∧ sending.sessState = 5#3 ∧
    (2#8 : Byte).toNat + 2 ≤ sending.cfg.capTx - (sending.cbTx.wr - sending.cbTx.rd).toNat := by decide

theorem witness_IllegalOpcodeFaults : 0x00#8 ∉ legalOpcodes ∧ 0x00#8 ∉ refusedOpcodes ∧ (0x10#8, Instr.illegal10) ∈ illegalRows := by
  decide

theorem witness_PortsCannotTouchSessionOrDispatcher :
    ∃ t, exec (decodeCommand 0x604200#24) State.reset = .next t ∧ t.queue .eq = [0x42#8] :=
  ⟨_, rfl, by decide⟩

theorem witness_RestartSleepInit_entry :
    State.reset.rstAsserted = false ∧ State.reset.sessPhase = .entry ∧ State.reset.sessState = 0#3 := by decide
theorem witness_RestartSleepInit_sleep : ∀ x : Bool,
    let s := { State.reset with sessPhase := .sleepRestart, sesExpired := x }
    s.rstAsserted = false ∧ s.sessPhase = .sleepRestart ∧ s.sessState.toNat ≤ 5 ∧ s.sesExpired = x := by
  decide

/-- SES sending byte `k` of the descriptor, TX holding `n` bytes. -/
def initSending (k : Nat) (n : Count) : State :=
  { State.reset with sessState := 2#3, sessPhase := .txPut k, link := 1#2, cbTx := { Cbc.reset with wr := n } }

theorem witness_InitSendsDescriptor_full :
    let s := initSending 0 64#8
    s.cfg.valid = true ∧ s.rstAsserted = false ∧ s.sessState = 2#3 ∧ s.sessPhase = .txPut 0 ∧
    s.cfg.desc[0]? = some 0x40#8 ∧ s.cbFull .tx = true := by decide
theorem witness_InitSendsDescriptor_last :
    let s := initSending 3 63#8
    s.cfg.valid = true ∧ s.rstAsserted = false ∧ s.sessState = 2#3 ∧ s.sessPhase = .txPut 3 ∧
    s.cfg.desc[3]? = some 0x04#8 ∧ s.cbFull .tx = false := by decide

theorem witness_AckWaitRestarts_silence : ∀ x : Bool,
    let s := { acking [] with sesExpired := x }
    s.rstAsserted = false ∧ s.sessState = 3#3 ∧ s.sessPhase = .getAck ∧ s.cbEmpty .rx = true ∧ s.sesExpired = x := by
  decide
theorem witness_AckWaitRestarts_byte :
    (acking [0x02#8]).cbEmpty .rx = false ∧ (acking [0x02#8]).sessPhase = .getAck ∧
    (acking [0x02#8]).readByte (.cbMem .rx) (slotOf (acking [0x02#8]).cfg.capRx (acking [0x02#8]).cbRx.rd) ≠ 0x04#8 := by
  decide

/-- SES in SetSpeed at `ph`. -/
def settingSpeed (ph : SesPhase) (x : Bool) : State :=
  { State.reset with sessState := 4#3, sessPhase := ph, link := 3#2, sesExpired := x }

theorem witness_SetSpeedSignalsStart_slept :
    (settingSpeed .sleepSpeed true).cfg.valid = true ∧ (settingSpeed .sleepSpeed true).rstAsserted = false ∧
    (settingSpeed .sleepSpeed true).sessState = 4#3 ∧ (settingSpeed .sleepSpeed true).sesExpired = true ∧
    (settingSpeed .sleepSpeed false).sesExpired = false := by decide
theorem witness_SetSpeedSignalsStart_room : (settingSpeed .pushStart false).cbFull .eq = false := by decide
theorem witness_SetSpeedSignalsStart_full : ∀ x : Bool,
    (eqFull (settingSpeed .pushStart x)).sessPhase = .pushStart ∧ (eqFull (settingSpeed .pushStart x)).cbFull .eq = true ∧
    (eqFull (settingSpeed .pushStart x)).sesExpired = x := by decide

theorem witness_CommandFramesBeginRead :
    (waiting []).sessPhase = .getFrame ∧ (5#3 : BitVec 3).toNat ≤ 5 ∧ encode (.cmdSelect 5#3) = .frameByte 0x6B#8 ∧
    encode (.cmdWrite 0#3) = .frameByte 0x44#8 ∧ encode (.cmdOther 1#3 1#3) = .frameByte 0x49#8 := by decide

/-- One byte in RX, the last of a 32-byte payload, which is longer than RX. -/
theorem witness_ReaderReadsPayload_byte :
    let s := inCommand 0x6B#8 (.payload 31) (List.replicate 31 0#8) [0x5A#8]
    s.cfg.valid = true ∧ s.rstAsserted = false ∧ s.sessState = 5#3 ∧ s.sessPhase = .command 0x6B#8 (.payload 31) ∧
    classOf 0x6B#8 = 1#2 ∧ (selOf 0x6B#8).toNat ≤ 5 ∧ s.cbEmpty .rx = false := by decide

theorem witness_ReaderReadsPayload :
    let s := inCommand 0x49#8 (.payload 0) [] [0x00#8, 0x01#8, 0xB7#8, 0x02#8]
    s.cfg.valid = true ∧ s.rstAsserted = false ∧ s.sessState = 5#3 ∧ s.sessPhase = .command 0x49#8 (.payload 0) ∧
    classOf 0x49#8 = 1#2 ∧ (selOf 0x49#8).toNat ≤ 5 ∧ [0x00#8, 0x01#8].length = (payloadLength 0x49#8).toNat ∧
    s.cmdLen.toNat = [0x00#8, 0x01#8].length ∧ s.rdCk = 0xFF#8 ^^^ 0x49#8 ∧
    s.queue .rx = [0x00#8, 0x01#8] ++ 0xB7#8 :: [0x02#8] := by
  refine ⟨by decide, rfl, rfl, rfl, by decide, by decide, by decide, by decide, by decide, by decide⟩

theorem witness_ChecksumByteDecides_mismatch :
    let s := inCommand 0x43#8 .checksum [0x02#8] [0xBF#8]
    encode (.cmdSelect 0#3) = .frameByte 0x43#8 ∧ s.sessPhase = .command 0x43#8 .checksum ∧ s.cbEmpty .rx = false ∧
    s.readByte (.cbMem .rx) (slotOf s.cfg.capRx s.cbRx.rd) ≠ s.rdCk := by decide
theorem witness_ChecksumByteDecides_select :
    let s := inCommand 0x43#8 .checksum [0x02#8] [0xBE#8]
    s.sessPhase = .command 0x43#8 .checksum ∧ s.cbEmpty .rx = false ∧
    s.readByte (.cbMem .rx) (slotOf s.cfg.capRx s.cbRx.rd) = s.rdCk := by decide
theorem witness_ChecksumByteDecides_sentinel :
    let s := inCommand 0x44#8 .checksum [0x11#8] [0xAA#8]
    s.sessPhase = .command 0x44#8 .checksum ∧ s.cbEmpty .rx = false ∧
    s.readByte (.cbMem .rx) (slotOf s.cfg.capRx s.cbRx.rd) = s.rdCk ∧ s.readByte .cmdBuf 0 = s.cfg.resetSentinel := by
  decide
theorem witness_ChecksumByteDecides_forward :
    let s := inCommand 0x4C#8 .checksum [0x20#8, 0x05#8] [0x96#8]
    s.sessPhase = .command 0x4C#8 .checksum ∧ s.cbEmpty .rx = false ∧
    s.readByte (.cbMem .rx) (slotOf s.cfg.capRx s.cbRx.rd) = s.rdCk ∧ s.readByte .cmdBuf 0 ≠ s.cfg.resetSentinel := by
  decide
theorem witness_ChecksumByteDecides_other :
    let s := inCommand 0x49#8 .checksum [0x00#8, 0x01#8] [0xB7#8]
    encode (.cmdOther 1#3 1#3) = .frameByte 0x49#8 ∧ s.sessPhase = .command 0x49#8 .checksum ∧ s.cbEmpty .rx = false ∧
    s.readByte (.cbMem .rx) (slotOf s.cfg.capRx s.cbRx.rd) = s.rdCk := by decide

theorem witness_CommandEffectCompletes_room :
    let s := inCommand 0x43#8 (.push 0x42#8) [0x02#8] []
    s.cfg.valid = true ∧ s.sessPhase = .command 0x43#8 (.push 0x42#8) ∧ s.cbFull .eq = false := by decide
theorem witness_CommandEffectCompletes_expired :
    let s := { eqFull (inCommand 0x43#8 (.push 0x42#8) [0x02#8] []) with sesExpired := true }
    s.sessPhase = .command 0x43#8 (.push 0x42#8) ∧ s.cbFull .eq = true ∧ s.sesExpired = true := by decide
theorem witness_CommandEffectCompletes_waits :
    let s := eqFull (inCommand 0x43#8 (.push 0x42#8) [0x02#8] [])
    s.sessPhase = .command 0x43#8 (.push 0x42#8) ∧ s.cbFull .eq = true ∧ s.sesExpired = false := by decide
theorem witness_CommandEffectCompletes_forward :
    let s := inCommand 0x4C#8 .forward [0x20#8, 0x05#8] []
    encode (.cmdWrite 1#3) = .frameByte 0x4C#8 ∧ s.sessPhase = .command 0x4C#8 .forward ∧ s.rstAsserted = false ∧
    s.sessState = 5#3 ∧ s.pendOf .dev = none ∧ (held 0#8 false s).pendOf .dev ≠ none := by decide

/-- SES before the second payload byte of MODES, in a legal state. -/
theorem blockInv_reading : BlockInv (inCommand 0x49#8 (.payload 1) [0x00#8] [0x01#8]) := by
  refine ⟨⟨by decide, ?_, by decide, ?_⟩, ?_, by decide, by decide, by decide, by decide, by decide⟩
  · intro i; cases i <;> decide
  · intro i; cases i <;> decide
  · show _ ∧ _ ∧ ReadSoFar _ _ _ ∧ _
    exact ⟨by decide, by decide, ⟨by decide, by decide, by decide, by decide, by decide⟩, by decide⟩

theorem witness_FailedReadHasNoEffect :
    let s := inCommand 0x49#8 (.payload 1) [0x00#8] [0x01#8]
    BlockInv s ∧ s.rstAsserted = false ∧ s.sessPhase = .command 0x49#8 (.payload 1) ∧
    ∃ t, transition .ses s = .next t ∧ t.sessPhase = .command 0x49#8 .checksum :=
  ⟨blockInv_reading, rfl, rfl, _, rfl, rfl⟩

theorem witness_EveryStepKeepsBlockLegal :
    let s := inCommand 0x49#8 (.payload 1) [0x00#8] [0x01#8]
    BlockInv { s with inputs := [.ses] } ∧ ∃ t, step { s with inputs := [.ses] } = .next t :=
  ⟨blockInv_reading, _, rfl⟩

/-- For EveryStepKeepsAddressesInSpace: a legal state whose listed addresses are inside their spaces, and its step. -/
theorem witness_EveryStepKeepsAddressesInSpace :
    let s := { inCommand 0x49#8 (.payload 1) [0x00#8] [0x01#8] with inputs := [.ses] }
    BlockInv s ∧ AddressesInSpace s ∧ ∃ t, step s = .next t ∧ t.queue .rx = [] := by
  refine ⟨blockInv_reading, ?_, after .ses (inCommand 0x49#8 (.payload 1) [0x00#8] [0x01#8]), rfl, by decide⟩
  intro sp
  rcases sp with i | _ | _
  · cases i <;> decide
  · decide
  · decide

theorem witness_EveryStepKeepsMemoryCanonical :
    CanonicalMemory popping ∧ AddressesInSpace popping ∧ HeldInv popping ∧ ∃ t, step popping = .next t := by
  refine ⟨?_, ?_, ?_, _, rfl⟩
  · intro sp
    rcases sp with i | _ | _
    · cases i <;> decide
    · decide
    · decide
  · intro sp
    rcases sp with i | _ | _
    · cases i <;> decide
    · decide
    · decide
  · intro p h hp
    exact absurd hp (by simp [popping, State.pendOf, State.reset, State.resetWith])

/-- DEV holding an EQ_PUSH whose finite wait has expired. -/
theorem heldInv_held : HeldInv (held 1#8 true (eqFull State.reset)) := by
  intro p h hp
  rw [held, pendOf_setPend] at hp
  split at hp
  · next hd =>
    subst hd
    cases hp
    exact ⟨rfl, by rw [decodeCommand_mkCommand]; trivial, fun _ => by decide⟩
  · exact absurd hp (by simp [eqFull, State.pendOf, State.reset, State.resetWith])

theorem witness_EveryStepKeepsHeldOperationsLegal :
    let s := { held 1#8 true (eqFull State.reset) with inputs := [.resume .dev] }
    HeldInv s ∧ ∃ t, step s = .next t ∧ t.responses = [⟨.dev, 0x0300#16⟩] :=
  ⟨heldInv_held, _, rfl, rfl⟩

theorem witness_FailureRestartsFromReset_silence :
    let s := { waiting [] with sesExpired := true }
    s.cfg.valid = true ∧ s.rstAsserted = false ∧ s.sessState = 5#3 ∧ s.sessPhase = .getFrame ∧ s.cbEmpty .rx = true ∧
    s.sesExpired = true := by decide
theorem witness_FailureRestartsFromReset_payload : ∀ x : Bool,
    let s := { inCommand 0x6B#8 (.payload 31) (List.replicate 31 0#8) [] with sesExpired := x }
    s.cfg.valid = true ∧ s.rstAsserted = false ∧ s.sessState = 5#3 ∧ s.sessPhase = .command 0x6B#8 (.payload 31) ∧
    classOf 0x6B#8 = 1#2 ∧ (selOf 0x6B#8).toNat ≤ 5 ∧ s.cbEmpty .rx = true ∧ s.sesExpired = x := by decide
theorem witness_FailureRestartsFromReset_checksum : ∀ x : Bool,
    let s := { inCommand 0x43#8 .checksum [0x02#8] [] with sesExpired := x }
    s.cfg.valid = true ∧ s.rstAsserted = false ∧ s.sessState = 5#3 ∧ s.sessPhase = .command 0x43#8 .checksum ∧
    classOf 0x43#8 = 1#2 ∧ (selOf 0x43#8).toNat ≤ 5 ∧ s.cbEmpty .rx = true ∧ s.sesExpired = x := by decide
theorem witness_FailureRestartsFromReset_stop :
    let s := { waiting [] with sessPhase := .pushStop }
    s.cfg.valid = true ∧ s.rstAsserted = false ∧ s.sessState = 5#3 ∧ s.sessPhase = .pushStop ∧ s.cbFull .eq = false := by
  decide
theorem witness_FailureRestartsFromReset_waits :
    (eqFull { waiting [] with sessPhase := .pushStop }).cbFull .eq = true ∧
    (eqFull { waiting [] with sessPhase := .pushStop }).sesExpired = false := by decide
theorem witness_FailureRestartsFromReset_expired :
    let s := { eqFull (waiting []) with sessPhase := .pushStop, sesExpired := true }
    s.sessState = 5#3 ∧ s.sessPhase = .pushStop ∧ s.cbFull .eq = true ∧ s.sesExpired = true := by decide

theorem witness_EventsPresentRequests : (7#3, Instr.eventEeprom) ∈ requestRows := by
  simp [requestRows]

theorem witness_RequestHandshake :
    ({ State.reset with dspPhase := .waitAck } : State).rstAsserted = false ∧
    ({ State.reset with dspPhase := .waitAck } : State).dspPhase = .waitAck ∧ State.reset.dspPhase = .waitEvent ∧
    ({ State.reset with dspPhase := .waitAck } : State).pendOf .dev = none ∧
    (held 0#8 false { State.reset with dspPhase := .waitAck }).pendOf .dev ≠ none ∧
    State.reset.cbEmpty .eq = true := by decide

/-- DEV, which acknowledges nothing here, is asked to. -/
theorem witness_EveryStepKeepsDeadlock :
    let s := { held 0#8 false (eqFull State.reset) with dspPhase := .waitAck, inputs := [.ackRequest] }
    Deadlocked s ∧ ∃ t, step s = .next t ∧ t.epoch = s.epoch :=
  ⟨⟨rfl, by decide, 0x03#8, false, by decide⟩, _, rfl, rfl⟩

theorem witness_ResetIsLegal : Config.vectors.valid = true := by decide

theorem witness_BlockResetEffect : ({ State.reset with rstAsserted := true } : State).rstAsserted = true := rfl

theorem witness_ConfigurationIsConstant_refused :
    ({ State.reset with cfg := { Config.vectors with capTx := 32 } } : State).cfg.valid = false := by decide

theorem witness_StepRunsDecodedInstruction :
    let s := { waiting [0x02#8] with inputs := [.ses] }
    let a := { acking [0x04#8] with inputs := [.ses] }
    (s.cfg.valid = true ∧ s.rstAsserted = false ∧ s.sessState = 5#3 ∧ s.sessPhase = .getFrame ∧ s.cbEmpty .rx = false) ∧
    (a.sessState = 3#3 ∧ a.sessPhase = .getAck ∧ a.cbEmpty .rx = false ∧
      a.readByte (.cbMem .rx) (slotOf a.cfg.capRx a.cbRx.rd) = 0x04#8) ∧
    (popping.inputs = [.dsp] ∧ popping.dspPhase = .waitEvent ∧ popping.cbEmpty .eq = false) ∧
    (portExists Config.vectors (.pin 3) = true ∧ State.reset.pendOf (.pin 3) = none) ∧
    portExists Config.vectors (.pin 4) = false ∧
    (held 1#8 true State.reset).pendOf .dev = some ⟨mkCommand 0x61#8 0x03#8 1#8, true⟩ ∧
    (inCommand 0x43#8 .checksum [0x02#8] []).sessState = 5#3 := by decide

theorem blockInv_waiting : BlockInv (waiting []) := by
  refine ⟨⟨by decide, ?_, by decide, ?_⟩, ⟨by decide, by decide⟩, by decide, by decide, by decide, by decide, by decide⟩
  · intro i; cases i <;> decide
  · intro i; cases i <;> decide

theorem witness_QuiescentBlockDoesNotStep :
    BlockInv (waiting []) ∧ Quiescent (waiting []) ∧ (waiting []).sesExpired = false ∧ (waiting []).rstAsserted = false := by
  refine ⟨blockInv_waiting, ⟨?_, by show (waiting []).cbEmpty .rx = true; decide, rfl, by decide, by decide⟩, rfl, rfl⟩
  intro p
  simp [waiting, State.pendOf, State.reset, State.resetWith]

end Sys2Proof.Tests
end

section
/-! PROOFS of the statements about 00_scope.md: which transition a step takes (R4, R9), what it runs (R85, R155, R255,
R290), and what an expiry by TMR does (R12). The rules about frames and about single transitions come first. -/

namespace Sys2Proof.Machine

/-! ### Frames of single updates -/

/-- Writing `PEND[p]` changes that entry alone. -/
theorem frame_setPend (s : State) (p : Port) (h : Option Held) : Frame [.pendOf p] s (s.setPend p h) := by
  intro f hf
  cases f with
  | pendOf q =>
    have hq : q ≠ p := by simpa using hf
    simp [Field.same, pendOf_setPend, hq]
  | rd i | wr i | drop i => simp [Field.same]
  | bytes sp => exact fun a => readByte_congr (by cases sp <;> simp [State.mem]) rfl
  | _ => rfl

/-- Writing the `EXPIRED` flag of SES changes that flag alone. -/
theorem frame_sesExpired (s : State) (x : Bool) : Frame [.sesExpired] s { s with sesExpired := x } := by
  intro f hf
  cases f with
  | sesExpired => simp at hf
  | rd i | wr i | drop i => cases i <;> rfl
  | bytes sp => exact fun a => readByte_congr (by cases sp with | cbMem i => cases i <;> rfl | _ => rfl) rfl
  | _ => rfl

/-! ### The transition that a stimulus asks for, while reset is not asserted -/

section Transition

variable {s : State}

theorem transition_ses (hr : s.rstAsserted = false) : transition .ses s = sesStep s := by
  simp [transition, hr]

theorem transition_dsp (hr : s.rstAsserted = false) : transition .dsp s = dspStep s := by
  simp [transition, hr]

theorem transition_issue (hr : s.rstAsserted = false) (p : Port) (w : CommandWord) :
    transition (.issue p w) s = issue p w s := by
  simp [transition, hr]

theorem transition_resume (hr : s.rstAsserted = false) (p : Port) : transition (.resume p) s = resume p s := by
  simp [transition, hr]

theorem transition_expire (hr : s.rstAsserted = false) (w : Wait) :
    transition (.expire w) s = .next (s.expire w) := by
  simp [transition, hr]

/-- In a legal configuration a step takes the oldest chosen transition, which is then no longer chosen. -/
theorem step_of_input {x : Stimulus} {rest : List Stimulus} (hv : s.cfg.valid = true) (hi : s.inputs = x :: rest) :
    step s = transition x { s with inputs := rest } := by
  simp [step, hv, nextStimulus, hi]

end Transition

/-! ### Expiry (R12, R36) -/

section Expiry

variable {s : State}

theorem expire_ses_of_untimed (h : s.sesWaitMs = none) : s.expire .ses = s := by
  simp [State.expire, h]

theorem expire_ses_of_timed (h : s.sesWaitMs.isSome = true) : s.expire .ses = { s with sesExpired := true } := by
  simp [State.expire, h]

theorem expire_port_of_idle {p : Port} (h : s.pendOf p = none) : s.expire (.port p) = s := by
  simp [State.expire, h]

theorem expire_port_of_untimed {p : Port} {h : Held} (hp : s.pendOf p = some h)
    (hw : portWaitMs s.cfg h.word = none) : s.expire (.port p) = s := by
  simp [State.expire, hp, hw]

theorem expire_port_of_timed {p : Port} {h : Held} (hp : s.pendOf p = some h)
    (hw : (portWaitMs s.cfg h.word).isSome = true) :
    s.expire (.port p) = s.setPend p (some { h with expired := true }) := by
  simp [State.expire, hp, hw]

/-- SES has no timed wait at the entry of a state, at `tx_put`, and while DEV has a write forward (R323). -/
theorem sesWaitMs_eq_none
    (h : s.sessPhase = .entry ∨ (∃ k, s.sessPhase = .txPut k) ∨ ∃ f, s.sessPhase = .command f .forward) :
    s.sesWaitMs = none := by
  obtain hp | ⟨k, hp⟩ | ⟨f, hp⟩ := h <;> simp [State.sesWaitMs, hp]

/-- Every point of a CMD frame but the write forward is a timed wait (R323). -/
theorem sesWaitMs_isSome_of_command {f : Byte} {pt : CmdPoint} (hp : s.sessPhase = .command f pt)
    (hpt : pt ≠ .forward) : s.sesWaitMs.isSome = true := by
  cases pt with
  | payload k | checksum | push e => simp [State.sesWaitMs, hp]
  | forward => exact absurd rfl hpt

/-- SES has a timed wait at a `sleep`, at a `get_byte` and at an event push (R323). -/
theorem sesWaitMs_isSome
    (h : s.sessPhase ∈ [SesPhase.sleepRestart, .getAck, .sleepSpeed, .pushStart, .getFrame, .pushStop] ∨
      ∃ f pt, s.sessPhase = .command f pt ∧ pt ≠ .forward) :
    s.sesWaitMs.isSome = true := by
  obtain hmem | ⟨f, pt, hp, hpt⟩ := h
  · simp only [List.mem_cons, List.not_mem_nil, or_false] at hmem
    obtain hp | hp | hp | hp | hp | hp := hmem <;> simp [State.sesWaitMs, hp]
  · exact sesWaitMs_isSome_of_command hp hpt

/-- EQ_PUSH is timed unless its timeout code is 0 (R154). -/
theorem portWaitMs_eqPush (c : Config) (a b : Byte) :
    portWaitMs c (mkCommand 0x61#8 a b) = if b = 0#8 then none else some (b.toNat * c.toUnitMs) := by
  simp [portWaitMs, decodeOpcode]

/-- SEND_DATA is never timed, in any of its modes (R262). -/
theorem portWaitMs_sendData (c : Config) {r : Byte × Byte × (Byte → Byte → Instr)} (hr : r ∈ sendRows) (a b : Byte) :
    portWaitMs c (mkCommand r.1 a b) = none := by
  simp only [sendRows, List.mem_cons, List.not_mem_nil, or_false] at hr
  obtain rfl | rfl | rfl | rfl | rfl | rfl | rfl | rfl := hr <;> simp [portWaitMs, decodeOpcode]

end Expiry

/-- Settles O16: an expiry acts exactly where the pending wait has a finite length. -/
theorem expirySetsFiniteWaitsOnly : Obligations.ExpirySetsFiniteWaitsOnly := by
  intro s hr
  simp only [transition_expire hr]
  refine ⟨fun h => ?_, fun h => ?_, fun p => ⟨fun hp => ?_, fun a b x hp => ⟨fun hb => ?_, fun hb => ?_⟩,
    fun r hrow a b x hp => ?_⟩⟩
  · rw [expire_ses_of_untimed (sesWaitMs_eq_none h)]
  · rw [expire_ses_of_timed (sesWaitMs_isSome h)]
    exact ⟨_, rfl, rfl, frame_sesExpired s true⟩
  · rw [expire_port_of_idle hp]
  · rw [expire_port_of_untimed hp (by simp [portWaitMs_eqPush, hb])]
  · rw [expire_port_of_timed hp (by simp [portWaitMs_eqPush, hb])]
    exact ⟨_, rfl, by simp [pendOf_setPend], frame_setPend s p _⟩
  · rw [expire_port_of_untimed hp (portWaitMs_sendData s.cfg hrow a b)]

/-! ### What a transition of each agent runs -/

section Runs

variable {s : State}

/-- An existing idle port runs the operation it issues (R4, R85). -/
theorem issue_of_enabled {p : Port} (w : CommandWord) (he : portExists s.cfg p = true) (hp : s.pendOf p = none) :
    issue p w s = exec (decodeCommand w) { s with port := p } := by
  simp [issue, he, hp]

/-- A port that does not exist, or holds an operation, issues nothing (R4, R35). -/
theorem issue_of_disabled {p : Port} (w : CommandWord) (h : portExists s.cfg p = false ∨ s.pendOf p ≠ none) :
    issue p w s = .next s := by
  obtain he | hp := h
  · simp [issue, he]
  · simp [issue, hp]

theorem resume_of_idle {p : Port} (hp : s.pendOf p = none) : resume p s = .next s := by
  simp [resume, hp]

/-- A held operation runs again from its command word (R155). -/
theorem resume_of_held {p : Port} {h : Held} (hp : s.pendOf p = some h) :
    resume p s = exec (decodeCommand h.word) { s with port := p } := by
  simp [resume, hp]

/-- `get_byte` pops the oldest byte of RX where there is one (R242). -/
theorem getByte_of_nonempty (h : s.cbEmpty .rx = false) :
    s.getByte = .byte (s.readByte (.cbMem .rx) (slotOf s.cfg.capRx s.cbRx.rd))
      { s with cbRx := { s.cbRx with rd := s.cbRx.rd + 1#8 } } := by
  obtain ⟨-, v, t, hpop, hgot⟩ | ⟨he, -⟩ | ⟨he, -⟩ := getByte_cases s
  · obtain ⟨-, rfl, rfl⟩ := state_of_cbPop hpop
    exact hgot
  · simp [h] at he
  · simp [h] at he

/-- Inside a CMD frame SES runs that frame (R240). -/
theorem sesStep_of_command {f : Byte} {pt : CmdPoint} (hs : s.sessState = 5#3) (hp : s.sessPhase = .command f pt) :
    sesStep s = exec (decodeFrame f) s := by
  simp [sesStep, hs, hp]

/-- In WaitingForCommand SES runs the frame it pops (R255). -/
theorem sesStep_of_frame (hs : s.sessState = 5#3) (hp : s.sessPhase = .getFrame) (he : s.cbEmpty .rx = false) :
    sesStep s = exec (decodeFrame (s.readByte (.cbMem .rx) (slotOf s.cfg.capRx s.cbRx.rd)))
      { s with cbRx := { s.cbRx with rd := s.cbRx.rd + 1#8 } } := by
  simp [sesStep, hs, hp, frameStep, getByte_of_nonempty he]

/-- In WaitingForAck SES runs the acknowledgement it pops (R253). -/
theorem sesStep_of_ack (hs : s.sessState = 3#3) (hp : s.sessPhase = .getAck) (he : s.cbEmpty .rx = false)
    (hb : s.readByte (.cbMem .rx) (slotOf s.cfg.capRx s.cbRx.rd) = 0x04#8) :
    sesStep s = exec .waitAckAck { s with cbRx := { s.cbRx with rd := s.cbRx.rd + 1#8 } } := by
  simp [sesStep, hs, hp, ackStep, getByte_of_nonempty he, hb, decode, decodeAck]

/-- At its pop DSP runs the event it pops (R290). -/
theorem dspStep_of_event (hp : s.dspPhase = .waitEvent) (he : s.cbEmpty .eq = false) :
    dspStep s = exec (decodeEvent (s.readByte (.cbMem .eq) (slotOf s.cfg.capEq s.cbEq.rd)))
      { s with cbEq := { s.cbEq with rd := s.cbEq.rd + 1#8 } } := by
  obtain ⟨⟨v, t⟩, hpop⟩ := Option.isSome_iff_exists.mp (cbPop_isSome s .eq he)
  have hstep : dspStep s = exec (decodeEvent v) t := by simp [dspStep, hp, he, hpop]
  obtain ⟨-, rfl, rfl⟩ := state_of_cbPop hpop
  exact hstep

end Runs

/-- Settles O58: the step takes the oldest chosen transition, and each agent's transition is one of the rules above, used
at the state in which that choice is used up. -/
theorem stepRunsDecodedInstruction : Obligations.StepRunsDecodedInstruction := by
  intro s rest hv hr
  refine ⟨fun p w hi he hp => ?issue, fun p w hi h => ?noIssue, fun p hi hp => ?noResume, fun p h hi hp => ?resume,
    fun f pt hi hs hp => ?command, fun hi hs hp he => ?frame, fun hi hs hp he hb => ?ack, fun hi hp he => ?event⟩
  all_goals
    have hru : ({ s with inputs := rest } : State).rstAsserted = false := hr
    rw [step_of_input hv hi]
  case issue => rw [transition_issue hru]; exact issue_of_enabled w he hp
  case noIssue => rw [transition_issue hru]; exact issue_of_disabled w h
  case noResume => rw [transition_resume hru]; exact resume_of_idle hp
  case resume => rw [transition_resume hru]; exact resume_of_held hp
  case command => rw [transition_ses hru]; exact sesStep_of_command hs hp
  case frame => rw [transition_ses hru]; exact sesStep_of_frame hs hp he
  case ack => rw [transition_ses hru]; exact sesStep_of_ack hs hp he hb
  case event => rw [transition_dsp hru]; exact dspStep_of_event hp he

end Sys2Proof.Machine
end

section
/-! PROOFS of the statements about 10_state.md: which part of the state each agent can write (R26, R31, R324), that FAULT
is sticky (R33), that the wire output is what was taken from TX (R38), and that the held operations stay legal (R35, R36).
The rules about the parts of the state come first, then one rule for each kind of transition and each part. -/

namespace Sys2Proof.Machine

/-! ### The part of the state that belongs to SES and DSP -/

/-- The registers and histories that only SES and DSP write, with `CMD_BUF` and its draw; every other piece is forgotten,
so that an equation between two of these says that the part is the same. -/
def State.agentPart (s : State) : State :=
  { State.reset with
    sessState := s.sessState, sessPhase := s.sessPhase, rdCk := s.rdCk, cmdBuf := s.cmdBuf, cmdLen := s.cmdLen
    sesResult := s.sesResult, link := s.link, sesExpired := s.sesExpired, writeFwds := s.writeFwds
    dspPhase := s.dspPhase, dspEv := s.dspEv, devReqs := s.devReqs, epoch := s.epoch }

/-- The same part means that each of the fields that R324 names is the same. -/
theorem same_of_agentPart_eq {s t : State} (h : t.agentPart = s.agentPart) :
    ∀ f, f ∈ SessionFields ++ DispatcherFields → f.same s t := by
  have project {α : Type} (g : State → α) : g t.agentPart = g s.agentPart := congrArg g h
  simp only [SessionFields, DispatcherFields, List.cons_append, List.nil_append, List.forall_mem_cons]
  exact ⟨project State.sessState, project State.sessPhase, project State.rdCk, project State.cmdLen,
    fun a => readByte_congr (project fun u => u.cmdBuf.read a) (project State.epoch), project State.sesResult,
    project State.link, project State.sesExpired, project State.writeFwds, project State.dspPhase,
    project State.dspEv, project State.devReqs, List.forall_mem_nil _⟩

section AgentPart

variable {s t u : State}

theorem agentPart_setCbc (i : Inst) (c : Cbc) : (s.setCbc i c).agentPart = s.agentPart := by
  cases i <;> rfl

theorem agentPart_countDrop (i : Inst) : (s.countDrop i).agentPart = s.agentPart := agentPart_setCbc i _

theorem agentPart_of_cbPush {i : Inst} {v : Byte} (h : s.cbPush i v = some u) : u.agentPart = s.agentPart := by
  obtain ⟨-, rfl⟩ := state_of_cbPush h
  exact agentPart_setCbc i _

theorem agentPart_of_cbPop {i : Inst} {v : Byte} (h : s.cbPop i = some (v, u)) : u.agentPart = s.agentPart := by
  obtain ⟨-, -, rfl⟩ := state_of_cbPop h
  exact agentPart_setCbc i _

theorem agentPart_of_cbPushAll {i : Inst} {vs : List Byte} (h : s.cbPushAll i vs = some u) :
    u.agentPart = s.agentPart := by
  obtain ⟨c, rfl⟩ := state_of_cbPushAll h
  exact agentPart_setCbc i c

/-- A push by a port keeps the part, with room or, as BAD_STATE (R313), without. -/
theorem agentPart_pushResult (w : CommandWord) (i : Inst) (v : Byte) :
    (s.pushResult w (s.cbPush i v)).agentPart = s.agentPart := by
  cases hp : s.cbPush i v with
  | none => rfl
  | some u => exact (agentPart_of_cbPush hp :)

theorem agentPart_makeOp {c : BitVec 2} {a b : Byte} (h : makeOp c a b s = .next t) : t.agentPart = s.agentPart := by
  unfold makeOp at h
  split at h <;> cases h <;> rfl

/-- SEND_DATA keeps the part, whatever its operands and in every configuration (R262, R313). -/
theorem agentPart_sendOp {m : BitVec 3} {w : CommandWord} {a b : Byte} (h : sendOp m w a b s = .next t) :
    t.agentPart = s.agentPart := by
  unfold sendOp at h
  split at h
  · cases h; rfl
  · next sel _ =>
    split at h
    · cases h; rfl
    · split at h
      · cases h; rfl
      · split at h
        · dsimp only at h
          split at h
          · next u hu => cases h; exact (agentPart_of_cbPushAll hu :)
          · cases h; rfl
        · cases h; rfl

/-- No port operation touches what belongs to SES and DSP, in any configuration. -/
theorem agentPart_exec_command {i : Instr} (hi : ∃ w, encode i = .command w) (h : exec i s = .next t) :
    t.agentPart = s.agentPart := by
  cases i with
  | cbPushRx a =>
    simp only [exec, execCbPushRx] at h
    split at h
    · cases h; rfl
    · split at h <;> cases h
      · exact agentPart_countDrop .rx
      · exact agentPart_pushResult _ .rx a
  | cbPopTx =>
    simp only [exec, execCbPopTx] at h
    split at h
    · cases h; rfl
    · split at h
      · next v u hu => cases h; exact (agentPart_of_cbPop hu :)
      · cases h; rfl
  | eqTryPush a =>
    simp only [exec, execEqTryPush] at h
    split at h <;> cases h
    · exact agentPart_countDrop .eq
    · exact agentPart_pushResult _ .eq a
  | eqPush a b =>
    simp only [exec, execEqPush] at h
    split at h
    · cases h; exact agentPart_pushResult _ .eq a
    · split at h <;> cases h <;> rfl
  | sbWrite a b =>
    simp only [exec, execSbWrite] at h
    split at h <;> cases h <;> rfl
  | sbRead a =>
    simp only [exec, execSbRead] at h
    split at h <;> cases h <;> rfl
  | sendData0 a b | sendData1 a b | sendData2 a b | sendData3 a b | sendData4 a b | sendData5 a b | sendData6 a b
  | sendData7 a b => exact agentPart_sendOp h
  | frMakeSys a b | frMakeCmd a b | frMakeInfo a b | frMakeData a b => exact agentPart_makeOp h
  | waitAckAck | sysNack | sysOther l x | cmdLenReserved l x | cmdSelect l | cmdWrite l | cmdOther l x | infoFrame l x
  | dataFrame l x | eventData n | eventScale n | eventMode n | eventReset n | eventStart n | eventStop n
  | eventRequest n | eventEeprom n => obtain ⟨w, hw⟩ := hi; cases hw
  | _ => cases h; rfl

end AgentPart

/-- Settles O31: every operation that a port's word decodes to keeps the part of SES and DSP. -/
theorem portsCannotTouchSessionOrDispatcher : Obligations.PortsCannotTouchSessionOrDispatcher := by
  intro w s t h
  exact same_of_agentPart_eq (agentPart_exec_command (encode_decodeCommand w) h)

/-! ### The part of the state that belongs to the ports -/

/-- What SES and DSP do not write, but for the FAULT bit of BAD_STATE: the parameters, `CK_ACC`, SAMPLE, FAULT, what the
ports hold and were answered, the wire output, and the model's own fields. Every other piece is forgotten. -/
def State.portPart (s : State) : State :=
  { State.reset with
    cfg := s.cfg, ckAcc := s.ckAcc, sample := s.sample, fault := s.fault, pend := s.pend, wireOut := s.wireOut
    responses := s.responses, port := s.port, rstAsserted := s.rstAsserted, epoch := s.epoch, inputs := s.inputs
    tick := s.tick }

section PortPart

variable {s t u : State}

theorem portPart_setCbc (i : Inst) (c : Cbc) : (s.setCbc i c).portPart = s.portPart := by
  cases i <;> rfl

theorem portPart_of_cbPush {i : Inst} {v : Byte} (h : s.cbPush i v = some u) : u.portPart = s.portPart := by
  obtain ⟨-, rfl⟩ := state_of_cbPush h
  exact portPart_setCbc i _

theorem portPart_of_cbPop {i : Inst} {v : Byte} (h : s.cbPop i = some (v, u)) : u.portPart = s.portPart := by
  obtain ⟨-, -, rfl⟩ := state_of_cbPop h
  exact portPart_setCbc i _

theorem portPart_finishFrame (k : ErrKind) : (s.finishFrame k).portPart = s.portPart := by
  cases k <;> rfl

theorem portPart_commandCase (f : Byte) : (commandCase f s).portPart = s.portPart := by
  unfold commandCase writeCase
  split
  · rfl
  · split
    · split <;> rfl
    · rfl

/-- The entry of a state keeps the part, or is BAD_STATE in SESS_STATE 6 and 7 (R256). -/
theorem portPart_enterCurrent_or_bad :
    s.enterCurrent.portPart = s.portPart ∨ s.enterCurrent = s.raiseBadState .ses := by
  unfold State.enterCurrent
  split
  case h_7 => exact .inr rfl
  all_goals exact .inl rfl

/-- No transition of SES touches the part of the ports, but for the FAULT bit of BAD_STATE (R313). -/
theorem SesEffect.portPart_or_bad (h : SesEffect s t) : t.portPart = s.portPart ∨ t = s.raiseBadState .ses := by
  cases h with
  | bad h => exact .inr rfl
  | enter h => exact portPart_enterCurrent_or_bad
  | stay | init | sent | ackTimeout | speedSet | startTimeout | stopTimeout => exact .inl rfl
  | send k b u _ _ hu => split <;> exact .inl (portPart_of_cbPush hu :)
  | started u _ hu | stopped u _ hu => exact .inl (portPart_of_cbPush hu :)
  | ack u _ hu | notAck r u _ hu | beginRead f u _ hu | payload f k r u _ hu => exact .inl (portPart_of_cbPop hu :)
  | timeout | stray => exact .inl (portPart_finishFrame _)
  | frame f k u _ hu | mismatch f r u _ hu => exact .inl ((portPart_finishFrame _).trans (portPart_of_cbPop hu))
  | pushed f e u _ hu => exact .inl ((portPart_finishFrame _).trans (portPart_of_cbPush hu))
  | good f r u _ _ hu => exact .inl ((portPart_commandCase f).trans (portPart_of_cbPop hu))

/-- No transition of DSP touches the part of the ports. -/
theorem DspEffect.portPart (h : DspEffect s t) : t.portPart = s.portPart := by
  cases h with
  | stay => rfl
  | request k n u _ _ hu => exact (portPart_of_cbPop hu :)
  | consume n u _ hu => exact (portPart_of_cbPop hu :)

theorem cfg_of_portPart (h : t.portPart = s.portPart) : t.cfg = s.cfg := by
  simpa [State.portPart] using congrArg State.cfg h

theorem fault_of_portPart (h : t.portPart = s.portPart) : t.fault = s.fault := by
  simpa [State.portPart] using congrArg State.fault h

theorem pend_of_portPart (h : t.portPart = s.portPart) : t.pend = s.pend := by
  simpa [State.portPart] using congrArg State.pend h

theorem wireOut_of_portPart (h : t.portPart = s.portPart) : t.wireOut = s.wireOut := by
  simpa [State.portPart] using congrArg State.wireOut h

end PortPart

/-! ### FAULT (R33) -/

section Fault

variable {s t : State}

/-- Every bit of FAULT that is set in `s` is set in `t`. -/
def FaultKept (s t : State) : Prop := t.fault &&& s.fault = s.fault

theorem FaultKept.of_eq (h : t.fault = s.fault) : FaultKept s t := by
  simp [FaultKept, h]

theorem FaultKept.of_or {b : Byte} (h : t.fault = s.fault ||| b) : FaultKept s t := by
  rw [FaultKept, h]
  ext i
  simp +contextual

theorem FaultKept.of_portPart (h : t.portPart = s.portPart) : FaultKept s t :=
  .of_eq (fault_of_portPart h)

/-- A port operation only sets bits: its own fault's (R310). -/
theorem PortEffect.faultKept {i : Instr} (h : PortEffect i s t) : FaultKept s t := by
  cases h with
  | answer | hold | load | write => exact .of_eq rfl
  | fault c => exact .of_or (State.raiseFault_fault s c)
  | drop c => exact .of_eq (by simp [State.countDrop])
  | push c v u _ hu => exact .of_eq (fault_of_portPart (portPart_of_cbPush hu) :)
  | pop v u hu => exact .of_eq (fault_of_portPart (portPart_of_cbPop hu) :)
  | send m sel a n u _ _ _ hu =>
    obtain ⟨c, rfl⟩ := state_of_cbPushAll hu
    exact .of_eq rfl

theorem SesEffect.faultKept (h : SesEffect s t) : FaultKept s t := by
  obtain h | rfl := h.portPart_or_bad
  · exact .of_portPart h
  · exact .of_or rfl

theorem faultKept_expire (w : Wait) : FaultKept s (s.expire w) := by
  obtain h | ⟨-, -, h⟩ | ⟨p, x, -, -, -, h⟩ := expire_cases s w <;> rw [h] <;> exact .of_eq rfl

/-- Driving the reset input clears FAULT only where it resets the block (R340). -/
theorem faultKept_driveReset {level : Bool} (he : (s.driveReset level).epoch = s.epoch) :
    FaultKept s (s.driveReset level) := by
  obtain ⟨-, h⟩ | ⟨-, -, h⟩ | ⟨-, -, h⟩ := driveReset_cases s level
  · rw [h]; exact .of_eq rfl
  · rw [h] at he; exact absurd he (Nat.succ_ne_self s.epoch)
  · rw [h]; exact .of_eq rfl

theorem StepEffect.faultKept (h : StepEffect s t) (he : t.epoch = s.epoch) : FaultKept s t := by
  cases h with
  | stay => exact .of_eq rfl
  | port p w t _ h => exact (h.faultKept :)
  | ses t h => exact h.faultKept
  | dsp t h => exact .of_portPart h.portPart
  | expire w => exact faultKept_expire w
  | ackRequest => exact .of_eq rfl
  | ackForward => exact .of_portPart (portPart_finishFrame _)
  | ackBad => exact .of_or rfl
  | drive level => exact faultKept_driveReset he

end Fault

/-- Settles O30: of all transitions only the release of the reset input clears a bit. -/
theorem faultBitsStick : Obligations.FaultBitsStick := by
  intro s t h he
  obtain ⟨-, i, n, hstep⟩ := step_effect h
  exact hstep.faultKept he

/-! ### The wire output and TX (R38, R131) -/

section Wire

variable {s t u : State}

/-- TX loses no byte, or is emptied by a link reset or by a block reset. -/
def TxKept (s t : State) : Prop :=
  (∃ added, t.queue .tx = s.queue .tx ++ added) ∨
  (t.queue .tx = [] ∧ (t.link.getLsbD 0 = false ∨ t.epoch = s.epoch + 1))

/-- The oldest byte of TX goes to the end of the wire output, or the wire output is the same and TX is kept. -/
def WireFollows (s t : State) : Prop :=
  (∃ v, s.queue .tx = v :: t.queue .tx ∧ t.wireOut = s.wireOut ++ [v]) ∨ (t.wireOut = s.wireOut ∧ TxKept s t)

theorem TxKept.of_eq (h : t.queue .tx = s.queue .tx) : TxKept s t := .inl ⟨[], by simp [h]⟩

theorem TxKept.of_push {v : Byte} (hv : s.cfg.valid = true) (h : s.cbPush .tx v = some u)
    (hq : t.queue .tx = u.queue .tx) : TxKept s t := .inl ⟨[v], hq.trans (queue_push hv h)⟩

theorem rxEn_setRxEn (x : Bool) : (s.setRxEn x).rxEn = x := by
  cases h : s.baudSel <;> cases x <;> simp [State.rxEn, State.setRxEn, h]

/-- A link reset empties TX and turns receive off (R241), and the wait that follows leaves it so. -/
theorem TxKept.of_linkReset (u : State) (ph : SesPhase) : TxKept s (u.linkReset.sesWait ph) :=
  .inr ⟨queue_of_empty rfl, .inl (rxEn_setRxEn (s := u) false)⟩

theorem WireFollows.of_eq (hw : t.wireOut = s.wireOut) (hq : t.queue .tx = s.queue .tx) : WireFollows s t :=
  .inr ⟨hw, .of_eq hq⟩

theorem queue_respond (st : Status) (d : Byte) (i : Inst) : (s.respond st d).queue i = s.queue i :=
  queue_congr (State.respond_cbc s st d i) rfl rfl

theorem queue_countDrop_other {i j : Inst} (h : j ≠ i) : (s.countDrop i).queue j = s.queue j :=
  queue_congr (by simp [State.countDrop, h]) (State.setCbc_cfg ..) (State.setCbc_epoch ..)

/-- What a command does after a good read leaves every queue alone: its push comes in a later transition (R217, R218). -/
theorem queue_commandCase (f : Byte) (i : Inst) : (commandCase f s).queue i = s.queue i := by
  unfold commandCase writeCase
  split
  · exact queue_congr (by cases i <;> rfl) rfl rfl
  · split
    · split <;> exact queue_congr (by cases i <;> rfl) rfl rfl
    · exact queue_finishFrame s _ i

theorem txKept_enterCurrent : TxKept s s.enterCurrent := by
  unfold State.enterCurrent
  split
  case h_1 => exact .of_linkReset _ _
  case h_2 => exact .of_linkReset _ _
  all_goals exact .of_eq (queue_congr rfl rfl rfl)

/-- SES pushes to TX and resets the link; it takes nothing from TX (R241, R244). -/
theorem SesEffect.txKept (h : SesEffect s t) (hv : s.cfg.valid = true) : TxKept s t := by
  cases h with
  | enter h => exact txKept_enterCurrent
  | stay | bad | init | sent | speedSet => exact .of_eq (queue_congr rfl rfl rfl)
  | ackTimeout | startTimeout | stopTimeout | notAck | stopped => exact .of_linkReset _ _
  | send k b u _ _ hu => split <;> exact .of_push hv hu (queue_congr rfl rfl rfl)
  | started u _ hu => exact .of_eq (queue_push_other (j := .tx) hu (by decide) :)
  | ack u _ hu | beginRead f u _ hu | payload f k r u _ hu => exact .of_eq (queue_pop_other (j := .tx) hu (by decide) :)
  | timeout | stray => exact .of_eq (queue_finishFrame s _ .tx)
  | frame f k u _ hu | mismatch f r u _ hu =>
    exact .of_eq ((queue_finishFrame u _ .tx).trans (queue_pop_other hu (by decide)))
  | pushed f e u _ hu => exact .of_eq ((queue_finishFrame u _ .tx).trans (queue_push_other hu (by decide)))
  | good f r u _ _ hu => exact .of_eq ((queue_commandCase f .tx).trans (queue_pop_other hu (by decide)))

theorem SesEffect.wireFollows (h : SesEffect s t) (hv : s.cfg.valid = true) : WireFollows s t := by
  refine .inr ⟨?_, h.txKept hv⟩
  obtain h | rfl := h.portPart_or_bad
  · exact wireOut_of_portPart h
  · rfl

theorem DspEffect.queue_tx (h : DspEffect s t) : t.queue .tx = s.queue .tx := by
  cases h with
  | stay => rfl
  | request k n u _ _ hu => exact (queue_pop_other (j := .tx) hu (by decide) :)
  | consume n u _ hu => exact (queue_pop_other (j := .tx) hu (by decide) :)

/-- A pop of TX that is answered with its byte moves that byte to the wire (R131). -/
theorem wire_of_pop {v : Byte} (h : s.cbPop .tx = some (v, u)) (hq : t.queue .tx = u.queue .tx)
    (hw : t.wireOut = u.wireOut ++ [v]) : s.queue .tx = v :: t.queue .tx ∧ t.wireOut = s.wireOut ++ [v] :=
  ⟨by rw [hq, queue_pop h], by rw [hw, wireOut_of_portPart (portPart_of_cbPop h)]⟩

/-- Of the port operations only CB_POP.TX takes a byte from TX, and SEND_DATA alone adds to it (R131, R262). -/
theorem PortEffect.wireFollows {i : Instr} (h : PortEffect i s t) (hv : s.cfg.valid = true) : WireFollows s t := by
  cases h with
  | answer | fault | hold | load | write => exact .of_eq rfl (queue_congr rfl rfl rfl)
  | drop c hc => exact .of_eq (by simp [State.countDrop]) ((queue_respond ..).trans (queue_countDrop_other hc.symm))
  | push c v u hc hu =>
    have hne : Inst.tx ≠ c := by rintro rfl; simp at hc
    exact .of_eq (wireOut_of_portPart (portPart_of_cbPush hu) :) ((queue_respond ..).trans (queue_push_other hu hne))
  | pop v u hu => exact .inl ⟨v, wire_of_pop hu (queue_congr rfl rfl rfl) rfl⟩
  | send m sel a n u _ _ _ hu =>
    have hq := queue_pushAll (s := s.frameSample m sel a n) hv hu .tx
    obtain ⟨c, rfl⟩ := state_of_cbPushAll hu
    exact .inr ⟨rfl, .inl ⟨_, hq⟩⟩

theorem wireFollows_expire (w : Wait) : WireFollows s (s.expire w) := by
  refine .of_eq ?_ (queue_expire s w .tx)
  obtain h | ⟨-, -, h⟩ | ⟨p, x, -, -, -, h⟩ := expire_cases s w <;> simp [h]

theorem wireFollows_driveReset (level : Bool) : WireFollows s (s.driveReset level) := by
  obtain ⟨-, h⟩ | ⟨-, -, h⟩ | ⟨-, -, h⟩ := driveReset_cases s level <;> rw [h]
  · exact .of_eq rfl (queue_congr rfl rfl rfl)
  · exact .inr ⟨rfl, .inr ⟨queue_of_empty rfl, .inr rfl⟩⟩
  · exact .of_eq rfl rfl

theorem StepEffect.wireFollows (h : StepEffect s t) (hv : s.cfg.valid = true) : WireFollows s t := by
  cases h with
  | stay => exact .of_eq rfl rfl
  | port p w t _ h => exact (h.wireFollows hv :)
  | ses t h => exact h.wireFollows hv
  | dsp t h => exact .of_eq (wireOut_of_portPart h.portPart) h.queue_tx
  | expire w => exact wireFollows_expire w
  | ackRequest | ackBad => exact .of_eq rfl (queue_congr rfl rfl rfl)
  | ackForward =>
    exact .of_eq (wireOut_of_portPart (portPart_finishFrame .success)) (queue_finishFrame s .success .tx)
  | drive level => exact wireFollows_driveReset level

/-- CB_POP.TX on a TX that holds a byte takes its oldest byte and adds it to the wire output (R131). -/
theorem exec_cbPopTx_of_nonempty (he : s.cbEmpty .tx = false) :
    Completes .cbPopTx s fun t => ∃ v, s.queue .tx = v :: t.queue .tx ∧ t.wireOut = s.wireOut ++ [v] := by
  obtain ⟨⟨v, u⟩, hu⟩ := Option.isSome_iff_exists.mp (cbPop_isSome s .tx he)
  have hexec : exec .cbPopTx s = .next ({ u with wireOut := u.wireOut ++ [v] }.respond .ok v) := by
    simp [exec, execCbPopTx, he, hu]
  exact ⟨_, hexec, v, wire_of_pop hu (queue_congr rfl rfl rfl) rfl⟩

end Wire

/-- Settles O50: each kind of transition keeps the wire output and TX together. -/
theorem wireOutputFollowsTx : Obligations.WireOutputFollowsTx := by
  refine ⟨fun s t h => ?_, fun s he => exec_cbPopTx_of_nonempty he⟩
  obtain ⟨hv, i, n, hstep⟩ := step_effect h
  exact (hstep.wireFollows hv :)

/-! ### Held operations (R35, R36, R154) -/

section Held

variable {s t : State}

/-- One held operation of port `p` is legal: the port exists, the operation may hold, and only a finite wait has
expired. -/
def HeldLegal (c : Config) (p : Port) (h : Held) : Prop :=
  portExists c p = true ∧ MayHold c (decodeCommand h.word) ∧
  (h.expired = true → (portWaitMs c h.word).isSome = true)

theorem heldInv_iff : HeldInv s ↔ ∀ p h, s.pendOf p = some h → HeldLegal s.cfg p h := Iff.rfl

/-- Only the parameters and what the ports hold matter. -/
theorem HeldInv.congr (hi : HeldInv s) (hc : t.cfg = s.cfg) (hp : t.pend = s.pend) : HeldInv t := by
  simpa only [HeldInv, State.pendOf, hc, hp] using hi

theorem HeldInv.of_portPart (hi : HeldInv s) (h : t.portPart = s.portPart) : HeldInv t :=
  hi.congr (cfg_of_portPart h) (pend_of_portPart h)

/-- A port that comes to hold nothing, or a legal operation, keeps the invariant. -/
theorem HeldInv.setPend (hi : HeldInv s) (p : Port) {x : Option Held} (hx : ∀ h, x = some h → HeldLegal s.cfg p h) :
    HeldInv (s.setPend p x) := by
  rw [heldInv_iff]
  intro q h hq
  rw [pendOf_setPend] at hq
  split at hq
  · next hqp => subst hqp; exact hx h hq
  · exact hi q h hq

theorem HeldInv.respond (hi : HeldInv s) (st : Status) (d : Byte) : HeldInv (s.respond st d) :=
  (hi.setPend s.port (x := none) (by simp) :)

/-- The length of a port's wait is that of its decoded operation. -/
theorem portWaitMs_congr {c : Config} {w w' : CommandWord} (h : decodeCommand w = decodeCommand w') :
    portWaitMs c w = portWaitMs c w' := by
  rw [portWaitMs, portWaitMs, h]

/-- An operation that begins or goes on to hold is legal: its flag is that of the operation the port held before, if it
held one, and that one decodes to the same (R155, R157). -/
theorem heldLegal_of_hold {w w' : CommandWord} (hi : HeldInv s)
    (hp : (portExists s.cfg s.port = true ∧ s.pendOf s.port = none) ∨ ∃ h, s.pendOf s.port = some h ∧ h.word = w')
    (hw : decodeCommand w = decodeCommand w') (hm : MayHold s.cfg (decodeCommand w')) :
    HeldLegal s.cfg s.port ⟨w, s.portExpired⟩ := by
  obtain ⟨hex, hnone⟩ | ⟨h, hsome, rfl⟩ := hp
  · refine ⟨hex, by rwa [hw], fun hx => ?_⟩
    simp [State.portExpired, hnone] at hx
  · obtain ⟨hex, -, hfin⟩ := hi _ h hsome
    refine ⟨hex, by rwa [hw], fun hx => ?_⟩
    rw [portWaitMs_congr hw]
    exact hfin (by simpa [State.portExpired, hsome] using hx)

/-- A port operation holds, or answers in a state with the same held operations. -/
theorem PortEffect.hold_or_respond {i : Instr} (h : PortEffect i s t) :
    (∃ w, decodeCommand w = i ∧ MayHold s.cfg i ∧ t = s.hold w) ∨
    ∃ (u : State) (st : Status) (d : Byte), t = u.respond st d ∧ u.cfg = s.cfg ∧ u.pend = s.pend := by
  cases h with
  | hold w hi hm => exact .inl ⟨w, hi, hm, rfl⟩
  | answer | fault | load | write => exact .inr ⟨_, _, _, rfl, rfl, rfl⟩
  | drop c => exact .inr ⟨_, _, _, rfl, State.setCbc_cfg .., State.setCbc_pend ..⟩
  | push c v u _ hu =>
    have h := portPart_of_cbPush hu
    exact .inr ⟨u, _, _, rfl, cfg_of_portPart h, pend_of_portPart h⟩
  | pop v u hu =>
    have h := portPart_of_cbPop hu
    exact .inr ⟨_, _, _, rfl, (cfg_of_portPart h :), (pend_of_portPart h :)⟩
  | send m sel a n u _ _ _ hu =>
    obtain ⟨c, rfl⟩ := state_of_cbPushAll hu
    exact .inr ⟨_, _, _, rfl, rfl, rfl⟩

/-- An operation issued by an existing idle port, or run again by the port that holds it, keeps the invariant. -/
theorem PortEffect.heldInv {w : CommandWord} (h : PortEffect (decodeCommand w) s t) (hi : HeldInv s)
    (hp : (portExists s.cfg s.port = true ∧ s.pendOf s.port = none) ∨ ∃ h, s.pendOf s.port = some h ∧ h.word = w) :
    HeldInv t := by
  obtain ⟨w', hw, hm, rfl⟩ | ⟨u, st, d, rfl, hc, hpend⟩ := h.hold_or_respond
  · refine hi.setPend s.port fun h hh => ?_
    obtain rfl := Option.some.inj hh
    exact heldLegal_of_hold hi hp hw hm
  · exact HeldInv.respond (hi.congr hc hpend) st d

/-- TMR sets the flag of a finite wait only (R12, R36). -/
theorem HeldInv.expire (hi : HeldInv s) (w : Wait) : HeldInv (s.expire w) := by
  obtain h | ⟨-, -, h⟩ | ⟨p, x, -, hx, hfin, h⟩ := expire_cases s w <;> rw [h]
  · exact hi
  · exact hi
  · refine hi.setPend p fun y hy => ?_
    obtain rfl := Option.some.inj hy
    obtain ⟨hex, hm, -⟩ := hi p x hx
    exact ⟨hex, hm, fun _ => hfin⟩

/-- After reset no port holds an operation (R341). -/
theorem pendOf_resetWith (c : Config) (p : Port) : (State.resetWith c).pendOf p = none := by
  simp [State.resetWith, State.pendOf]

theorem HeldInv.driveReset (hi : HeldInv s) (level : Bool) : HeldInv (s.driveReset level) := by
  obtain ⟨-, h⟩ | ⟨-, -, h⟩ | ⟨-, -, h⟩ := driveReset_cases s level <;> rw [h]
  · exact hi
  · intro p x hx
    exact absurd ((pendOf_resetWith s.cfg p).symm.trans hx) (by simp)
  · exact hi

theorem StepEffect.heldInv (h : StepEffect s t) (hi : HeldInv s) : HeldInv t := by
  cases h with
  | stay | ackRequest | ackBad => exact hi
  | port p w t hp h => exact h.heldInv hi hp
  | ses t h =>
    obtain h | rfl := h.portPart_or_bad
    · exact hi.of_portPart h
    · exact hi
  | dsp t h => exact hi.of_portPart h.portPart
  | expire w => exact hi.expire w
  | ackForward => exact hi.of_portPart (portPart_finishFrame .success)
  | drive level => exact hi.driveReset level

end Held

/-- Settles O54: only port operations, expiries and a block reset change what the ports hold, and each keeps it legal. -/
theorem everyStepKeepsHeldOperationsLegal : Obligations.EveryStepKeepsHeldOperationsLegal := by
  intro s t hi h
  obtain ⟨-, i, n, hstep⟩ := step_effect h
  exact hstep.heldInv hi

end Sys2Proof.Machine
end

section
/-! PROOFS of the statements about 20_memory.md: that no step writes the parameters (R64), which addresses of which
spaces a step writes (R60 to R63), and that every buffer is first in, first out (R72). -/

namespace Sys2Proof.Machine

/-! ### The parameters (R64, R343) -/

section Parameters

variable {s t : State}

theorem PortEffect.cfg_eq {i : Instr} (h : PortEffect i s t) : t.cfg = s.cfg := by
  obtain ⟨w, -, -, rfl⟩ | ⟨u, st, d, rfl, hc, -⟩ := h.hold_or_respond
  · rfl
  · exact hc

theorem SesEffect.cfg_eq (h : SesEffect s t) : t.cfg = s.cfg := by
  obtain h | rfl := h.portPart_or_bad
  · exact cfg_of_portPart h
  · rfl

theorem cfg_expire (w : Wait) : (s.expire w).cfg = s.cfg := by
  obtain h | ⟨-, -, h⟩ | ⟨p, x, -, -, -, h⟩ := expire_cases s w <;> simp [h]

/-- The parameters survive a block reset (R343). -/
theorem cfg_driveReset (level : Bool) : (s.driveReset level).cfg = s.cfg := by
  obtain ⟨-, h⟩ | ⟨-, -, h⟩ | ⟨-, -, h⟩ := driveReset_cases s level <;> simp [h, State.resetWith]

theorem StepEffect.cfg_eq (h : StepEffect s t) : t.cfg = s.cfg := by
  cases h with
  | stay | ackRequest | ackBad => rfl
  | port p w t _ h => exact (h.cfg_eq :)
  | ses t h => exact h.cfg_eq
  | dsp t h => exact cfg_of_portPart h.portPart
  | expire w => exact cfg_expire w
  | ackForward => exact cfg_of_portPart (portPart_finishFrame .success)
  | drive level => exact cfg_driveReset level

end Parameters

/-- Settles O57: no kind of transition writes the parameters, and `step` refuses an illegal configuration. -/
theorem configurationIsConstant : Obligations.ConfigurationIsConstant := by
  refine ⟨fun s t h => ?_, fun s hv => by simp [step, hv]⟩
  obtain ⟨-, i, n, hstep⟩ := step_effect h
  exact (hstep.cfg_eq :)

/-! ### Which addresses a step writes (R60 to R63) -/

/-- The addresses at which a transition from `s` may write: the slots of a buffer, the addresses of SAMPLE, and of
`CMD_BUF` the index of the payload byte that SES waits for. -/
def State.Writable (s : State) : Space → Nat → Prop
  | .cbMem i, a => a < s.cfg.cap i
  | .cmdBuf, a => ∃ f, s.sessPhase = .command f (.payload a)
  | .sample, a => a < s.cfg.sampleSize

/-- The spaces `m'` come from the spaces `m`, or from empty ones, by writes at addresses that `ok` admits. -/
inductive Rewritten (ok : Space → Nat → Prop) (m : Space → Memory) : (Space → Memory) → Prop where
  | same : Rewritten ok m m
  | cleared : Rewritten ok m fun _ => []
  | write {m' : Space → Memory} (h : Rewritten ok m m') (sp : Space) (a : Nat) (v : Byte) (ha : ok sp a) :
    Rewritten ok m (Function.update m' sp ((m' sp).write a v))

/-- What holds of an empty space and is kept by each admitted write is kept by all of them. -/
theorem Rewritten.keeps {ok : Space → Nat → Prop} {m m' : Space → Memory} {P : Space → Memory → Prop}
    (h : Rewritten ok m m') (hm : ∀ sp, P sp (m sp)) (hnil : ∀ sp, P sp [])
    (hwrite : ∀ sp a v m, ok sp a → P sp m → P sp (m.write a v)) : ∀ sp, P sp (m' sp) := by
  induction h with
  | same => exact hm
  | cleared => exact hnil
  | @write m' _ sp a v ha ih =>
    intro sq
    by_cases hs : sq = sp
    · subst hs; simpa using hwrite sq a v (m' sq) ha (ih sq)
    · simpa [hs] using ih sq

section Spaces

variable {s t u : State}

/-- From `s` to `t` the spaces change only by clearing them all, and by writes where `s` admits one. -/
def SpacesWritten (s t : State) : Prop := Rewritten s.Writable s.mem t.mem

theorem SpacesWritten.of_eq (h : t.mem = s.mem) : SpacesWritten s t := by
  rw [SpacesWritten, h]; exact .same

/-! Each shared operation on the spaces, as an equation. -/

theorem mem_sampleWrite (a : Nat) (v : Byte) :
    (s.sampleWrite a v).mem = Function.update s.mem .sample ((s.mem .sample).write a v) := by
  funext sp
  rcases sp with i | _ | _ <;> simp [State.mem]

theorem mem_cmdBufWrite (k : Nat) (v : Byte) :
    (s.cmdBufWrite k v).mem = Function.update s.mem .cmdBuf ((s.mem .cmdBuf).write k v) := by
  funext sp
  rcases sp with i | _ | _ <;> simp [State.mem]

theorem mem_of_cbPush {i : Inst} {v : Byte} (h : s.cbPush i v = some u) :
    u.mem = Function.update s.mem (.cbMem i) ((s.mem (.cbMem i)).write (slotOf (s.cfg.cap i) (s.cbc i).wr) v) := by
  obtain ⟨-, rfl⟩ := state_of_cbPush h
  funext sp
  rcases sp with j | _ | _
  · by_cases hj : j = i <;> simp [State.mem, hj]
  all_goals simp [State.mem]

/-- Where the instances keep their slots, and `CMD_BUF` and SAMPLE are the same, so are the spaces. A state made by
updates of other fields meets each condition by computation. -/
theorem mem_congr (heq : t.cbEq.mem = s.cbEq.mem := by rfl) (hrx : t.cbRx.mem = s.cbRx.mem := by rfl)
    (htx : t.cbTx.mem = s.cbTx.mem := by rfl) (hcmd : t.cmdBuf = s.cmdBuf := by rfl)
    (hsample : t.sample = s.sample := by rfl) : t.mem = s.mem := by
  funext sp
  rcases sp with (_ | _ | _) | _ | _
  exacts [heq, hrx, htx, hcmd, hsample]

/-- A pop writes no space (R125). -/
theorem mem_of_cbPop {i : Inst} {v : Byte} (h : s.cbPop i = some (v, u)) : u.mem = s.mem := by
  obtain ⟨-, -, rfl⟩ := state_of_cbPop h
  cases i <;> exact mem_congr

theorem mem_finishFrame (k : ErrKind) : (s.finishFrame k).mem = s.mem := by
  cases k <;> exact mem_congr

theorem mem_commandCase (f : Byte) : (commandCase f s).mem = s.mem := by
  unfold commandCase writeCase
  split
  · exact mem_congr
  · split
    · split <;> exact mem_congr
    · exact mem_finishFrame _

/-- The entry of a session state writes no space: a link reset keeps the slots (R241). -/
theorem mem_enterCurrent : s.enterCurrent.mem = s.mem := by
  unfold State.enterCurrent
  split <;> exact mem_congr

/-! Each kind of transition. -/

/-- A push writes the slot of the write count, which is inside its buffer (R61, R124). -/
theorem SpacesWritten.push {i : Inst} {v : Byte} (h : SpacesWritten s t) (hv : s.cfg.valid = true)
    (hc : t.cfg = s.cfg) (hu : t.cbPush i v = some u) : SpacesWritten s u := by
  rw [SpacesWritten, mem_of_cbPush hu, hc]
  exact h.write (.cbMem i) _ v (slotOf_lt (Config.cap_mem hv i) _)

theorem SpacesWritten.pushAll {i : Inst} {vs : List Byte} (h : SpacesWritten s t) (hv : s.cfg.valid = true)
    (hc : t.cfg = s.cfg) (hu : t.cbPushAll i vs = some u) : SpacesWritten s u := by
  induction vs generalizing t with
  | nil => cases hu; exact h
  | cons v rest ih =>
    rw [State.cbPushAll] at hu
    split at hu
    · cases hu
    · next w hw => exact ih (h.push hv hc hw) ((cfg_of_cbPush hw).trans hc) hu

theorem SpacesWritten.sampleWrite (h : SpacesWritten s t) {a : Nat} (ha : a < s.cfg.sampleSize) (v : Byte) :
    SpacesWritten s (t.sampleWrite a v) := by
  rw [SpacesWritten, mem_sampleWrite]
  exact h.write .sample a v ha

/-- A message's frame byte and checksum lie inside SAMPLE with its payload (R262, R321). -/
theorem spacesWritten_frameSample {m sel : BitVec 3} {a n : Nat} (hr : a + n + 2 ≤ s.cfg.sampleSize) :
    SpacesWritten s (s.frameSample m sel a n) :=
  ((SpacesWritten.of_eq rfl).sampleWrite (by omega) _).sampleWrite (by omega) _

/-- A change that keeps the spaces adds nothing to what was written before it. -/
theorem SpacesWritten.trans_eq (h : SpacesWritten s u) (he : t.mem = u.mem) : SpacesWritten s t := by
  rw [SpacesWritten, he]; exact h

theorem spacesWritten_of_cbPush {i : Inst} {v : Byte} (hv : s.cfg.valid = true) (hu : s.cbPush i v = some u) :
    SpacesWritten s u := (SpacesWritten.of_eq rfl).push hv rfl hu

theorem spacesWritten_of_cbPop {i : Inst} {v : Byte} (hu : s.cbPop i = some (v, u)) : SpacesWritten s u :=
  .of_eq (mem_of_cbPop hu)

theorem PortEffect.spacesWritten {i : Instr} (h : PortEffect i s t) (hv : s.cfg.valid = true) : SpacesWritten s t := by
  cases h with
  | answer | fault | hold | load => exact .of_eq mem_congr
  | drop c => cases c <;> exact .of_eq mem_congr
  | push c v u _ hu => exact (spacesWritten_of_cbPush hv hu).trans_eq mem_congr
  | pop v u hu => exact (spacesWritten_of_cbPop hu).trans_eq mem_congr
  | write a v ha => exact ((SpacesWritten.of_eq rfl).sampleWrite ha v).trans_eq mem_congr
  | send m sel a n u _ hr _ hu => exact ((spacesWritten_frameSample hr).pushAll hv rfl hu).trans_eq mem_congr

/-- SES pushes to EQ and TX, and writes to `CMD_BUF` the payload byte it waits for (R211). -/
theorem SesEffect.spacesWritten (h : SesEffect s t) (hv : s.cfg.valid = true) : SpacesWritten s t := by
  cases h with
  | stay | bad | init | sent | ackTimeout | speedSet | startTimeout | stopTimeout => exact .of_eq mem_congr
  | enter h => exact .of_eq mem_enterCurrent
  | send k b u _ _ hu => split <;> exact (spacesWritten_of_cbPush hv hu).trans_eq mem_congr
  | started u _ hu | stopped u _ hu => exact (spacesWritten_of_cbPush hv hu).trans_eq mem_congr
  | pushed f e u _ hu => exact (spacesWritten_of_cbPush hv hu).trans_eq (mem_finishFrame .success)
  | ack u _ hu | notAck r u _ hu | beginRead f u _ hu => exact (spacesWritten_of_cbPop hu).trans_eq mem_congr
  | timeout | stray => exact .of_eq (mem_finishFrame _)
  | frame f k u _ hu | mismatch f r u _ hu => exact (spacesWritten_of_cbPop hu).trans_eq (mem_finishFrame _)
  | good f r u _ _ hu => exact (spacesWritten_of_cbPop hu).trans_eq (mem_commandCase f)
  | payload f k r u hph hu =>
    have hw : SpacesWritten s (u.cmdBufWrite k r) := by
      rw [SpacesWritten, mem_cmdBufWrite, mem_of_cbPop hu]
      exact Rewritten.same.write .cmdBuf k r ⟨f, hph⟩
    exact hw.trans_eq mem_congr

theorem DspEffect.spacesWritten (h : DspEffect s t) : SpacesWritten s t := by
  cases h with
  | stay => exact .of_eq rfl
  | request k n u _ _ hu | consume n u _ hu => exact (spacesWritten_of_cbPop hu).trans_eq mem_congr

theorem mem_expire (w : Wait) : (s.expire w).mem = s.mem := by
  obtain h | ⟨-, -, h⟩ | ⟨p, x, -, -, -, h⟩ := expire_cases s w <;> rw [h]
  all_goals exact mem_congr

/-- A block reset clears every space: its bytes are unspecified again (R23, R32, R341). -/
theorem mem_resetWith (c : Config) : (State.resetWith c).mem = fun _ => [] := by
  funext sp
  rcases sp with (_ | _ | _) | _ | _ <;> rfl

theorem spacesWritten_driveReset (level : Bool) : SpacesWritten s (s.driveReset level) := by
  obtain ⟨-, h⟩ | ⟨-, -, h⟩ | ⟨-, -, h⟩ := driveReset_cases s level <;> rw [h]
  · exact .of_eq mem_congr
  · have hclear : SpacesWritten s (State.resetWith s.cfg) := by
      rw [SpacesWritten, mem_resetWith]
      exact .cleared
    exact hclear.trans_eq mem_congr
  · exact .of_eq rfl

theorem StepEffect.spacesWritten (h : StepEffect s t) (hv : s.cfg.valid = true) : SpacesWritten s t := by
  cases h with
  | stay => exact .of_eq rfl
  | port p w t _ h => exact (h.spacesWritten hv :)
  | ses t h => exact h.spacesWritten hv
  | dsp t h => exact h.spacesWritten
  | expire w => exact .of_eq (mem_expire w)
  | ackRequest | ackBad => exact .of_eq mem_congr
  | ackForward => exact .of_eq (mem_finishFrame .success)
  | drive level => exact spacesWritten_driveReset level

end Spaces

/-- A step writes only where the state before it admits a write. -/
theorem step_spacesWritten {s t : State} (h : step s = .next t) : SpacesWritten s t := by
  obtain ⟨hv, i, n, hstep⟩ := step_effect h
  exact (hstep.spacesWritten hv :)

/-- Settles O51: the empty space is in the canonical form, and a write at any address keeps it. -/
theorem everyStepKeepsMemoryCanonical : Obligations.EveryStepKeepsMemoryCanonical := by
  intro s t hc h
  exact (step_spacesWritten h).keeps (P := fun _ m => m.wf = true) hc (fun _ => Memory.wf_nil)
    fun _ a v _ _ hm => Memory.wf_write hm a v

/-- A CMD frame that is read has at most 32 payload bytes (R92, R215). -/
theorem payloadLength_le {f : Byte} (h : (selOf f).toNat ≤ 5) : (payloadLength f).toNat ≤ Config.maxPayload := by
  revert f; decide

/-- In a legal state every address that a transition may write is inside its space: SES waits only for payload bytes of
a frame of at most 32 (R211, R216). -/
theorem BlockInv.writable_lt {s : State} (hi : BlockInv s) {sp : Space} {a : Nat} (h : s.Writable sp a) :
    a < s.spaceSize sp := by
  cases sp with
  | cbMem i => exact h
  | sample => exact h
  | cmdBuf =>
    obtain ⟨f, hph⟩ := h
    obtain ⟨-, hagree, -⟩ := hi
    simp only [SesAgrees, hph] at hagree
    obtain ⟨-, -, ⟨-, hsel, hlen, -⟩, hk⟩ := hagree
    calc a < s.cmdLen.toNat := hk
      _ = (payloadLength f).toNat := hlen
      _ ≤ Config.maxPayload := payloadLength_le hsel

theorem spaceSize_congr {s t : State} (h : t.cfg = s.cfg) : t.spaceSize = s.spaceSize := by
  funext sp
  cases sp <;> simp [State.spaceSize, h]

/-- Settles O52: from a legal state a step writes only inside the spaces, whose sizes are parameters. -/
theorem everyStepKeepsAddressesInSpace : Obligations.EveryStepKeepsAddressesInSpace := by
  intro s t hi ha h
  rw [AddressesInSpace, spaceSize_congr (configurationIsConstant.1 s t h)]
  exact (step_spacesWritten h).keeps (P := fun sp m => m.below (s.spaceSize sp) = true) ha (fun _ => rfl)
    fun _ _ v _ hw hm => Memory.below_write hm (hi.writable_lt hw) v

/-! ### First in, first out (R72, R163, R241) -/

/-- From `s` to `t` buffer `i` gained bytes at its new end, or lost one at its old end. -/
def FifoMoved (i : Inst) (s t : State) : Prop :=
  (∃ added, t.queue i = s.queue i ++ added) ∨ ∃ v, s.queue i = v :: t.queue i

/-- From `s` to `t` buffer `i` was emptied, by a link reset or by a block reset. -/
def FifoEmptied (i : Inst) (s t : State) : Prop :=
  t.queue i = [] ∧ ((i ≠ .eq ∧ t.link.getLsbD 0 = false) ∨ t.epoch = s.epoch + 1)

/-- From `s` to `t` buffer `i` kept its order. -/
def FifoKept (i : Inst) (s t : State) : Prop := FifoMoved i s t ∨ FifoEmptied i s t

section Fifo

variable {s t u : State} {i : Inst}

theorem FifoMoved.of_eq (h : t.queue i = s.queue i) : FifoMoved i s t := .inl ⟨[], by simp [h]⟩

theorem FifoMoved.trans_eq (h : FifoMoved i s u) (he : t.queue i = u.queue i) : FifoMoved i s t := by
  rw [FifoMoved, he]; exact h

/-- Where the instances, the parameters and the draw are the same, every queue is. A state made by updates of other
fields meets each condition by computation. -/
theorem queue_of_same (heq : t.cbEq = s.cbEq := by rfl) (hrx : t.cbRx = s.cbRx := by rfl)
    (htx : t.cbTx = s.cbTx := by rfl) (hc : t.cfg = s.cfg := by rfl) (he : t.epoch = s.epoch := by rfl) :
    t.queue i = s.queue i := by
  cases i <;> exact queue_congr (by assumption) hc he

/-- A push to buffer `c` moves no other, and adds its byte to `c`. -/
theorem fifoMoved_of_cbPush {c : Inst} {v : Byte} (hv : s.cfg.valid = true) (h : s.cbPush c v = some u) :
    FifoMoved i s u := by
  by_cases hi : i = c
  · subst hi; exact .inl ⟨[v], queue_push hv h⟩
  · exact .of_eq (queue_push_other h hi)

theorem fifoMoved_of_cbPushAll {c : Inst} {vs : List Byte} (hv : s.cfg.valid = true) (h : s.cbPushAll c vs = some u) :
    FifoMoved i s u := by
  have hq := queue_pushAll hv h i
  by_cases hi : i = c
  · subst hi; exact .inl ⟨vs, by simpa using hq⟩
  · exact .of_eq (by simpa [hi] using hq)

/-- A pop of buffer `c` moves no other, and takes a byte from `c`. -/
theorem fifoMoved_of_cbPop {c : Inst} {v : Byte} (h : s.cbPop c = some (v, u)) : FifoMoved i s u := by
  by_cases hi : i = c
  · subst hi; exact .inr ⟨v, queue_pop h⟩
  · exact .of_eq (queue_pop_other h hi)

/-- A drop is counted, and nothing that is held moves (R130, R152). -/
theorem queue_countDrop (c : Inst) : (s.countDrop c).queue i = s.queue i := by
  cases c <;> cases i <;> rfl

/-- The instances do not keep their bytes in SAMPLE (R60). -/
theorem queue_sampleWrite (a : Nat) (v : Byte) : (s.sampleWrite a v).queue i = s.queue i := queue_of_same

theorem PortEffect.fifoMoved {c : Instr} (h : PortEffect c s t) (hv : s.cfg.valid = true) : FifoMoved i s t := by
  cases h with
  | answer | fault | hold | load | write => exact .of_eq queue_of_same
  | drop c => exact .of_eq ((queue_respond ..).trans (queue_countDrop c))
  | push c v u _ hu => exact (fifoMoved_of_cbPush hv hu).trans_eq (queue_respond ..)
  | pop v u hu => exact (fifoMoved_of_cbPop hu).trans_eq queue_of_same
  | send m sel a n u _ _ _ hu =>
    have hmove : FifoMoved i (s.frameSample m sel a n) u := fifoMoved_of_cbPushAll hv hu
    have hframe : (s.frameSample m sel a n).queue i = s.queue i := (queue_sampleWrite ..).trans (queue_sampleWrite ..)
    rw [FifoMoved, hframe] at hmove
    exact FifoMoved.trans_eq hmove (queue_respond ..)

/-- After a link reset RX and TX are empty with receive off, and EQ is as before it (R241). -/
theorem fifoKept_linkReset (hu : FifoMoved .eq s u) (ph : SesPhase) : FifoKept i s (u.linkReset.sesWait ph) := by
  have hq : (u.linkReset.sesWait ph).queue i = if i = .eq then u.queue .eq else [] :=
    Eq.trans queue_of_same (queue_linkReset u i)
  cases i with
  | eq => exact .inl (hu.trans_eq hq)
  | rx | tx => exact .inr ⟨hq, .inl ⟨by simp, rxEn_setRxEn (s := u) false⟩⟩

theorem fifoKept_enterCurrent : FifoKept i s s.enterCurrent := by
  unfold State.enterCurrent
  split
  case h_1 | h_2 => exact fifoKept_linkReset (.of_eq queue_of_same) .sleepRestart
  all_goals exact .inl (.of_eq queue_of_same)

/-- A transition of SES pushes at most one byte or pops at most one (R240); where it then resets the link, RX and TX are
empty after it (R241). -/
theorem SesEffect.fifoKept (h : SesEffect s t) (hv : s.cfg.valid = true) : FifoKept i s t := by
  cases h with
  | stay | bad | init | sent | speedSet => exact .inl (.of_eq queue_of_same)
  | enter h => exact fifoKept_enterCurrent
  | ackTimeout | startTimeout | stopTimeout => exact fifoKept_linkReset (.of_eq queue_of_same) .sleepRestart
  | notAck r u _ hu => exact fifoKept_linkReset ((fifoMoved_of_cbPop hu).trans_eq queue_of_same) .sleepRestart
  | stopped u _ hu => exact fifoKept_linkReset ((fifoMoved_of_cbPush hv hu).trans_eq queue_of_same) .sleepRestart
  | send k b u _ _ hu => split <;> exact .inl ((fifoMoved_of_cbPush hv hu).trans_eq queue_of_same)
  | started u _ hu => exact .inl ((fifoMoved_of_cbPush hv hu).trans_eq queue_of_same)
  | pushed f e u _ hu => exact .inl ((fifoMoved_of_cbPush hv hu).trans_eq (queue_finishFrame u _ i))
  | ack u _ hu | beginRead f u _ hu | payload f k r u _ hu =>
    exact .inl ((fifoMoved_of_cbPop hu).trans_eq queue_of_same)
  | frame f k u _ hu | mismatch f r u _ hu => exact .inl ((fifoMoved_of_cbPop hu).trans_eq (queue_finishFrame u _ i))
  | good f r u _ _ hu => exact .inl ((fifoMoved_of_cbPop hu).trans_eq (queue_commandCase f i))
  | timeout | stray => exact .inl (.of_eq (queue_finishFrame s _ i))

theorem DspEffect.fifoMoved (h : DspEffect s t) : FifoMoved i s t := by
  cases h with
  | stay => exact .of_eq rfl
  | request k n u _ _ hu | consume n u _ hu => exact (fifoMoved_of_cbPop hu).trans_eq queue_of_same

/-- Driving the reset input empties a buffer only where it resets the block (R340). -/
theorem fifoKept_driveReset (level : Bool) : FifoKept i s (s.driveReset level) := by
  obtain ⟨-, h⟩ | ⟨-, -, h⟩ | ⟨-, -, h⟩ := driveReset_cases s level <;> rw [h]
  · exact .inl (.of_eq queue_of_same)
  · exact .inr ⟨queue_of_empty (by cases i <;> rfl), .inr rfl⟩
  · exact .inl (.of_eq rfl)

theorem StepEffect.fifoKept (h : StepEffect s t) (hv : s.cfg.valid = true) : FifoKept i s t := by
  cases h with
  | stay => exact .inl (.of_eq rfl)
  | port p w t _ h => exact .inl (h.fifoMoved hv :)
  | ses t h => exact h.fifoKept hv
  | dsp t h => exact .inl h.fifoMoved
  | expire w => exact .inl (.of_eq (queue_expire s w i))
  | ackRequest | ackBad => exact .inl (.of_eq queue_of_same)
  | ackForward => exact .inl (.of_eq (queue_finishFrame s .success i))
  | drive level => exact fifoKept_driveReset level

end Fifo

/-- Settles O10: each kind of transition moves a buffer at one of its ends, or empties it in a reset. -/
theorem everyStepKeepsFifoOrder : Obligations.EveryStepKeepsFifoOrder := by
  intro s t h i
  obtain ⟨hv, j, n, hstep⟩ := step_effect h
  exact or_assoc.mp (hstep.fifoKept hv :)

end Sys2Proof.Machine
end

section
/-! PROOFS of the statements about 30_encoding.md: the opcode map on its listed and unlisted opcodes (R84, R85), the
decoders of frame and event bytes by class and by kind (R90, R102), and from these that decoding and encoding agree. -/

namespace Sys2Proof.Machine

/-! ### The opcode map (R84, R85) -/

/-- An opcode that has no row of its own selects the catch-all (R85, R311). -/
theorem decodeOpcode_unlisted {o : Byte} (hl : o ∉ legalOpcodes) (hr : o ∉ refusedOpcodes) (a b : Byte) :
    decodeOpcode o a b = .illegalOpcode o := by
  have hmem : ∀ n, o.toNat = n → BitVec.ofNat 8 n ∉ legalOpcodes ++ refusedOpcodes := by
    rintro n rfl
    simp [hl, hr]
  unfold decodeOpcode
  split
  case h_65 => rfl
  all_goals next h => exact absurd (hmem _ h) (by decide)

/-- The word of a decoded operation: its opcode, and the operands that its row reads (R81, R84, R86). -/
def readWord (o a b : Byte) : CommandWord :=
  mkCommand o (if o ∈ readsA then a else 0#8) (if o ∈ readsB then b else 0#8)

/-- A listed opcode selects its own row, which keeps the operands it reads. -/
theorem decodeOpcode_listed {o : Byte} (h : o ∈ legalOpcodes ∨ o ∈ refusedOpcodes) (a b : Byte) :
    (decodeOpcode o a b).wf = true ∧ encode (decodeOpcode o a b) = .command (readWord o a b) := by
  rcases h with h | h <;> fin_cases h <;> exact ⟨rfl, rfl⟩

/-- Every opcode that reads an operand is legal (R84). -/
theorem reads_subset_legal : readsA ⊆ legalOpcodes ∧ readsB ⊆ legalOpcodes := by decide

/-- The opcode map gives a well-formed instruction, whose word is the opcode with the operands that are read. -/
theorem decodeOpcode_spec (o a b : Byte) :
    (decodeOpcode o a b).wf = true ∧ encode (decodeOpcode o a b) = .command (readWord o a b) := by
  by_cases h : o ∈ legalOpcodes ∨ o ∈ refusedOpcodes
  · exact decodeOpcode_listed h a b
  · obtain ⟨hl, hr⟩ := not_or.mp h
    have hA : o ∉ readsA := fun hm => hl (reads_subset_legal.1 hm)
    have hB : o ∉ readsB := fun hm => hl (reads_subset_legal.2 hm)
    rw [decodeOpcode_unlisted hl hr]
    exact ⟨by simp [Instr.wf, hl, hr], by simp [encode, command, readWord, hA, hB]⟩

/-- Settles O2: the decoder is the opcode map on the three fields of the word (R80). -/
theorem commandDecoderTotal : Obligations.CommandDecoderTotal := by
  intro w
  obtain ⟨hwf, henc⟩ := decodeOpcode_spec (opcOf w) (opAOf w) (opBOf w)
  exact ⟨hwf, _, henc, opcOf_mkCommand .., opAOf_mkCommand .., opBOf_mkCommand ..⟩

/-- Decoding a command word that is put together is the opcode map on its three bytes. -/
theorem decode_command (o a b : Byte) : decode (command o a b) = .ok (decodeOpcode o a b) := by
  simp [decode, command]

/-! ### Frame bytes by class (R90, R98) -/

theorem mkFrame_inj {c c' : BitVec 2} {l l' x x' : BitVec 3} :
    mkFrame c l x = mkFrame c' l' x' ↔ c = c' ∧ l = l' ∧ x = x' := by
  constructor
  · intro h
    exact ⟨by simpa using congrArg classOf h, by simpa using congrArg selOf h, by simpa using congrArg contentOf h⟩
  · rintro ⟨rfl, rfl, rfl⟩; rfl

/-- Class SYS: NACK is the byte with `LLL` 0 and `XXX` 2 (R214). -/
theorem decodeFrame_sys (l x : BitVec 3) :
    decodeFrame (mkFrame 0#2 l x) = if l = 0#3 ∧ x = 2#3 then .sysNack else .sysOther l x := by
  have hnack : mkFrame 0#2 l x = 0x02#8 ↔ l = 0#3 ∧ x = 2#3 := by
    rw [show 0x02#8 = mkFrame 0#2 0#3 2#3 from rfl, mkFrame_inj]
    exact and_iff_right rfl
  simp [decodeFrame, hnack]

/-- Class CMD: the length check comes before the command id (R215, R216). -/
theorem decodeFrame_cmd (l x : BitVec 3) :
    decodeFrame (mkFrame 1#2 l x) =
      if 6 ≤ l.toNat then .cmdLenReserved l x
      else if x = 3#3 then .cmdSelect l
      else if x = Config.writeId then .cmdWrite l
      else .cmdOther l x := by
  simp [decodeFrame]

theorem decodeFrame_info (l x : BitVec 3) : decodeFrame (mkFrame 2#2 l x) = .infoFrame l x := by
  simp [decodeFrame]

theorem decodeFrame_data (l x : BitVec 3) : decodeFrame (mkFrame 3#2 l x) = .dataFrame l x := by
  simp [decodeFrame]

theorem class_cases : ∀ c : BitVec 2, c = 0#2 ∨ c = 1#2 ∨ c = 2#2 ∨ c = 3#2 := by decide

/-- A frame byte put together from its fields is the encoding of what SES decodes from it. -/
theorem decodeFrame_spec (c : BitVec 2) (l x : BitVec 3) :
    (decodeFrame (mkFrame c l x)).wf = true ∧ encode (decodeFrame (mkFrame c l x)) = .frameByte (mkFrame c l x) := by
  obtain rfl | rfl | rfl | rfl := class_cases c
  · rw [decodeFrame_sys]
    split
    · next h => obtain ⟨rfl, rfl⟩ := h; exact ⟨rfl, rfl⟩
    · next h => exact ⟨by simpa [Instr.wf, imp_iff_not_or] using h, rfl⟩
  · rw [decodeFrame_cmd]
    split_ifs with hlen hsel hwrite
    · exact ⟨by simpa [Instr.wf] using hlen, rfl⟩
    · exact ⟨by simp only [Instr.wf, decide_eq_true_eq]; omega, by rw [hsel]; rfl⟩
    · exact ⟨by simp only [Instr.wf, decide_eq_true_eq]; omega, by rw [hwrite]; rfl⟩
    · have hle : l.toNat ≤ 5 := by omega
      exact ⟨by simp [Instr.wf, hle, hsel, hwrite], rfl⟩
  · rw [decodeFrame_info]; exact ⟨rfl, rfl⟩
  · rw [decodeFrame_data]; exact ⟨rfl, rfl⟩

/-! ### Event bytes by kind (R102, R290) -/

theorem kind_cases : ∀ k : BitVec 3,
    k = 0#3 ∨ k = 1#3 ∨ k = 2#3 ∨ k = 3#3 ∨ k = 4#3 ∨ k = 5#3 ∨ k = 6#3 ∨ k = 7#3 := by decide

/-- An event byte put together from its fields is the encoding of what DSP decodes from it. -/
theorem decodeEvent_spec (k : BitVec 3) (n : BitVec 5) :
    (decodeEvent (mkEvent k n)).wf = true ∧ encode (decodeEvent (mkEvent k n)) = .eventByte (mkEvent k n) := by
  rw [decodeEvent, kindOf_mkEvent, infoOf_mkEvent]
  obtain rfl | rfl | rfl | rfl | rfl | rfl | rfl | rfl := kind_cases k <;> exact ⟨rfl, rfl⟩

/-- Settles O3: every byte is put together from its own fields, by class and by kind. -/
theorem bytesDecodeInjectively : Obligations.BytesDecodeInjectively := by
  constructor
  · intro f
    rw [← mkFrame_fields f]
    exact decodeFrame_spec ..
  · intro e
    rw [← mkEvent_fields e]
    exact decodeEvent_spec ..

/-! ### Decoding and encoding agree -/

/-- Settles O4: each word is a closed case of its decoder. -/
theorem writtenWordsDecode : Obligations.WrittenWordsDecode :=
  ⟨rfl, rfl, rfl, rfl, rfl, rfl, rfl, rfl, rfl, rfl, rfl, rfl⟩

/-- Settles O1, format by format: well-formedness is used where a row's fields overlap those of a row tested before it
(R85, R214 to R219). -/
theorem decodeEncodeAgree : Obligations.DecodeEncodeAgree := by
  intro i hwf
  cases i with
  | illegalOpcode o =>
    obtain ⟨hl, hr⟩ : o ∉ legalOpcodes ∧ o ∉ refusedOpcodes := by simpa [Instr.wf] using hwf
    rw [encode, decode_command, decodeOpcode_unlisted hl hr]
  | waitAckAck | sysNack => rfl
  | sysOther l x =>
    have hother : ¬ (l = 0#3 ∧ x = 2#3) := by simpa [Instr.wf, imp_iff_not_or] using hwf
    rw [encode, decode, decodeFrame_sys, if_neg hother]
  | cmdLenReserved l x =>
    have hlen : 6 ≤ l.toNat := by simpa [Instr.wf] using hwf
    rw [encode, decode, decodeFrame_cmd, if_pos hlen]
  | cmdSelect l =>
    have hle : l.toNat ≤ 5 := by simpa [Instr.wf] using hwf
    have hlen : ¬ 6 ≤ l.toNat := by omega
    rw [encode, decode, decodeFrame_cmd, if_neg hlen, if_pos rfl]
  | cmdWrite l =>
    have hle : l.toNat ≤ 5 := by simpa [Instr.wf] using hwf
    have hlen : ¬ 6 ≤ l.toNat := by omega
    rw [encode, decode, decodeFrame_cmd, if_neg hlen, if_neg (by decide), if_pos rfl]
  | cmdOther l x =>
    obtain ⟨⟨hle, hsel⟩, hwrite⟩ : (l.toNat ≤ 5 ∧ x ≠ 3#3) ∧ x ≠ Config.writeId := by simpa [Instr.wf] using hwf
    have hlen : ¬ 6 ≤ l.toNat := by omega
    rw [encode, decode, decodeFrame_cmd, if_neg hlen, if_neg hsel, if_neg hwrite]
  | infoFrame l x => rw [encode, decode, decodeFrame_info]
  | dataFrame l x => rw [encode, decode, decodeFrame_data]
  | eventData n | eventScale n | eventMode n | eventReset n | eventStart n | eventStop n | eventRequest n
  | eventEeprom n => simp [encode, decode, decodeEvent]
  | _ => exact decode_command ..

end Sys2Proof.Machine
end

section
/-! PROOFS of the statements about 41_circular_buffer.md. First that the buffers stay legal (R126, R135, R23): what each
operation on one buffer keeps, then one rule for each kind of transition. -/

namespace Sys2Proof.Machine

/-! ### One legal buffer (R126, R23) -/

/-- A buffer of capacity `cap` is legal: it holds at most `cap` bytes, and each slot it holds has been written. -/
def Cbc.Legal (cap : Nat) (c : Cbc) : Prop :=
  c.size.toNat ≤ cap ∧ ∀ j < c.size.toNat, (c.mem.read (slotOf cap (c.rd + BitVec.ofNat 8 j))).isSome = true

/-- Legal buffers are three legal instances, with no drop counted by TX (R135). -/
theorem bufferInv_iff {s : State} :
    BufferInv s ↔ s.cfg.valid = true ∧ (∀ i, (s.cbc i).Legal (s.cfg.cap i)) ∧ s.cbTx.drop = 0#8 :=
  ⟨fun ⟨hv, hsize, hdrop, hread⟩ => ⟨hv, fun i => ⟨hsize i, hread i⟩, hdrop⟩,
    fun ⟨hv, hlegal, hdrop⟩ => ⟨hv, fun i => (hlegal i).1, hdrop, fun i => (hlegal i).2⟩⟩

/-- The write count is the read count plus the size (R121). -/
theorem Cbc.wr_eq_rd_add_size (c : Cbc) : c.wr = c.rd + BitVec.ofNat 8 c.size.toNat := by
  rw [BitVec.ofNat_toNat, BitVec.setWidth_eq, Cbc.size, BitVec.add_comm, BitVec.sub_add_cancel]

/-- Counters cleared to 0 leave nothing to pop (R241, R341). -/
theorem Cbc.legal_of_cleared (cap : Nat) (drop : Byte) (mem : Memory) : Cbc.Legal cap ⟨0#8, 0#8, drop, mem⟩ := by
  simp [Cbc.Legal, Cbc.size]

section Buffers

variable {s t u : State} {i : Inst}

/-- A push takes a free slot, which it writes; the slots held before it keep their bytes (R124). -/
theorem legal_of_cbPush {v : Byte} (hv : s.cfg.valid = true) (h : s.cbPush i v = some u)
    (hl : (s.cbc i).Legal (s.cfg.cap i)) : (u.cbc i).Legal (s.cfg.cap i) := by
  have hfree : (s.cbc i).size.toNat < s.cfg.cap i :=
    (isFull_false_iff (Config.cap_mem hv i) _).mp (state_of_cbPush h).1
  have hsize : (u.cbc i).size.toNat = (s.cbc i).size.toNat + 1 := by
    simpa [State.cbSize] using congrArg List.length (queue_push hv h)
  refine ⟨by omega, fun j hj => ?_⟩
  rw [cbc_of_cbPush h, if_pos rfl, Memory.read_write]
  split
  · rfl
  · next hslot =>
    have hne : j ≠ (s.cbc i).size.toNat := fun hj =>
      hslot (by rw [hj]; exact congrArg _ (s.cbc i).wr_eq_rd_add_size.symm)
    exact hl.2 j (by omega)

/-- A pop gives its slot up, and the slots held after it were held before it (R125). -/
theorem legal_of_cbPop {v : Byte} (h : s.cbPop i = some (v, u)) (hl : (s.cbc i).Legal (s.cfg.cap i)) :
    (u.cbc i).Legal (s.cfg.cap i) := by
  have hsize : (s.cbc i).size.toNat = (u.cbc i).size.toNat + 1 := by
    simpa [State.cbSize] using congrArg List.length (queue_pop h)
  refine ⟨by have := hl.1; omega, fun j hj => ?_⟩
  have hslot : (s.cbc i).rd + 1#8 + BitVec.ofNat 8 j = (s.cbc i).rd + BitVec.ofNat 8 (j + 1) := by
    rw [BitVec.ofNat_add, BitVec.add_comm (BitVec.ofNat 8 j), BitVec.add_assoc]
  rw [cbc_of_cbPop h, if_pos rfl, hslot]
  exact hl.2 (j + 1) (by omega)

/-! ### The legal buffers of a state -/

/-- Whether the buffers are legal depends on the parameters and the instances. A state made by updates of other fields
meets each condition by computation. -/
theorem BufferInv.of_same (hi : BufferInv s) (hc : t.cfg = s.cfg := by rfl) (heq : t.cbEq = s.cbEq := by rfl)
    (hrx : t.cbRx = s.cbRx := by rfl) (htx : t.cbTx = s.cbTx := by rfl) : BufferInv t := by
  have hcbc : ∀ i, t.cbc i = s.cbc i := by rintro (_ | _ | _) <;> assumption
  simpa only [bufferInv_iff, hc, htx, hcbc] using hi

/-- Replacing a buffer by a legal one keeps all of them legal, if it counts no drop by TX. -/
theorem BufferInv.setCbc {c : Cbc} (hi : BufferInv s) (hl : c.Legal (s.cfg.cap i))
    (hd : i = .tx → c.drop = s.cbTx.drop) : BufferInv (s.setCbc i c) := by
  obtain ⟨hv, hlegal, hdrop⟩ := bufferInv_iff.mp hi
  refine bufferInv_iff.mpr ⟨by rwa [State.setCbc_cfg], fun j => ?_, ?_⟩
  · rw [State.setCbc_cfg, State.setCbc_cbc]
    split
    · next hj => exact hj ▸ hl
    · exact hlegal j
  · cases i with
    | tx => exact (hd rfl).trans hdrop
    | eq | rx => exact hdrop

theorem BufferInv.push {v : Byte} (hi : BufferInv s) (h : s.cbPush i v = some u) : BufferInv u := by
  obtain ⟨hv, hlegal, -⟩ := bufferInv_iff.mp hi
  have hl := legal_of_cbPush hv h (hlegal i)
  obtain ⟨-, rfl⟩ := state_of_cbPush h
  rw [State.setCbc_cbc, if_pos rfl] at hl
  exact hi.setCbc hl (by rintro rfl; rfl)

theorem BufferInv.pushAll {vs : List Byte} (hi : BufferInv s) (h : s.cbPushAll i vs = some u) : BufferInv u := by
  induction vs generalizing s with
  | nil => cases h; exact hi
  | cons v rest ih =>
    rw [State.cbPushAll] at h
    split at h
    · cases h
    · next w hw => exact ih (hi.push hw) h

theorem BufferInv.pop {v : Byte} (hi : BufferInv s) (h : s.cbPop i = some (v, u)) : BufferInv u := by
  obtain ⟨-, hlegal, -⟩ := bufferInv_iff.mp hi
  have hl := legal_of_cbPop h (hlegal i)
  obtain ⟨-, -, rfl⟩ := state_of_cbPop h
  rw [State.setCbc_cbc, if_pos rfl] at hl
  exact hi.setCbc hl (by rintro rfl; rfl)

/-- EQ and RX may count a drop (R130, R152); TX never does (R135). -/
theorem BufferInv.countDrop (hi : BufferInv s) (hne : i ≠ .tx) : BufferInv (s.countDrop i) :=
  hi.setCbc ((bufferInv_iff.mp hi).2.1 i) fun h => absurd h hne

/-- A link reset clears the counters of RX and TX and keeps the drop counts (R241). -/
theorem BufferInv.linkReset (hi : BufferInv s) : BufferInv s.linkReset := by
  obtain ⟨hv, hlegal, hdrop⟩ := bufferInv_iff.mp hi
  refine bufferInv_iff.mpr ⟨hv, fun j => ?_, hdrop⟩
  cases j with
  | eq => exact hlegal .eq
  | rx | tx => exact Cbc.legal_of_cleared ..

/-- The buffers are legal after reset, in every legal configuration (R341). -/
theorem bufferInv_resetWith {c : Config} (hv : c.valid = true) : BufferInv (State.resetWith c) :=
  bufferInv_iff.mpr ⟨hv, fun i => by cases i <;> exact Cbc.legal_of_cleared .., rfl⟩

/-! ### Each kind of transition keeps the buffers legal -/

theorem BufferInv.finishFrame (hi : BufferInv s) (k : ErrKind) : BufferInv (s.finishFrame k) := by
  cases k <;> exact hi.of_same

theorem BufferInv.commandCase (hi : BufferInv s) (f : Byte) : BufferInv (commandCase f s) := by
  unfold Machine.commandCase writeCase
  split
  · exact hi.of_same
  · split
    · split <;> exact hi.of_same
    · exact hi.finishFrame _

theorem BufferInv.enterStart (hi : BufferInv s) : BufferInv s.enterStart :=
  (BufferInv.linkReset (s := { s with sessState := stStart }) hi.of_same).of_same

theorem BufferInv.enterReset (hi : BufferInv s) : BufferInv s.enterReset :=
  (BufferInv.linkReset (s := { s with sessState := stReset }) hi.of_same).of_same

theorem BufferInv.enterCurrent (hi : BufferInv s) : BufferInv s.enterCurrent := by
  unfold State.enterCurrent
  split
  case h_1 => exact hi.enterStart
  case h_2 => exact hi.enterReset
  all_goals exact hi.of_same

theorem BufferInv.expire (hi : BufferInv s) (w : Wait) : BufferInv (s.expire w) := by
  obtain h | ⟨-, -, h⟩ | ⟨p, x, -, -, -, h⟩ := expire_cases s w <;> rw [h]
  all_goals exact hi.of_same

theorem BufferInv.driveReset (hi : BufferInv s) (level : Bool) : BufferInv (s.driveReset level) := by
  obtain ⟨-, h⟩ | ⟨-, -, h⟩ | ⟨-, -, h⟩ := driveReset_cases s level <;> rw [h]
  · exact hi.of_same
  · exact (bufferInv_resetWith hi.1).of_same
  · exact hi

theorem PortEffect.bufferInv {c : Instr} (h : PortEffect c s t) (hi : BufferInv s) : BufferInv t := by
  cases h with
  | answer | fault | hold | load | write => exact hi.of_same
  | drop c hc => exact (hi.countDrop hc).of_same
  | push c v u _ hu => exact (hi.push hu).of_same
  | pop v u hu => exact (hi.pop hu).of_same
  | send m sel a n u _ _ _ hu =>
    have hframe : BufferInv (s.frameSample m sel a n) := hi.of_same
    exact (hframe.pushAll hu).of_same

theorem SesEffect.bufferInv (h : SesEffect s t) (hi : BufferInv s) : BufferInv t := by
  cases h with
  | stay | bad | init | sent | speedSet => exact hi.of_same
  | enter h => exact hi.enterCurrent
  | ackTimeout => exact BufferInv.enterStart hi.of_same
  | notAck r u _ hu => exact BufferInv.enterStart (hi.pop hu).of_same
  | startTimeout => exact BufferInv.enterReset hi.of_same
  | stopTimeout => exact hi.enterReset
  | stopped u _ hu => exact (hi.push hu).enterReset
  | send k b u _ _ hu => split <;> exact (hi.push hu).of_same
  | started u _ hu => exact (hi.push hu).of_same
  | pushed f e u _ hu => exact (hi.push hu).finishFrame .success
  | ack u _ hu | beginRead f u _ hu | payload f k r u _ hu => exact (hi.pop hu).of_same
  | frame f k u _ hu | mismatch f r u _ hu => exact (hi.pop hu).finishFrame _
  | good f r u _ _ hu => exact (hi.pop hu).commandCase f
  | timeout | stray => exact hi.finishFrame _

theorem DspEffect.bufferInv (h : DspEffect s t) (hi : BufferInv s) : BufferInv t := by
  cases h with
  | stay => exact hi
  | request k n u _ _ hu | consume n u _ hu => exact (hi.pop hu).of_same

theorem StepEffect.bufferInv (h : StepEffect s t) (hi : BufferInv s) : BufferInv t := by
  cases h with
  | stay => exact hi
  | port p w t _ h => exact h.bufferInv hi.of_same
  | ses t h => exact h.bufferInv hi
  | dsp t h => exact h.bufferInv hi
  | expire w => exact hi.expire w
  | ackRequest | ackBad => exact hi.of_same
  | ackForward => exact hi.finishFrame .success
  | drive level => exact hi.driveReset level

end Buffers

/-- Settles O11: each kind of transition keeps the buffers legal. -/
theorem everyStepKeepsBuffersLegal : Obligations.EveryStepKeepsBuffersLegal := by
  intro s t hi h
  obtain ⟨-, j, n, hstep⟩ := step_effect h
  exact hstep.bufferInv hi.of_same

end Sys2Proof.Machine
end

section
/-! PROOFS of the statements about 41_circular_buffer.md, continued: what the port operations of the controller answer and
leave alone (R130 to R135), and that a buffer is first in, first out (R126 to R128). The rules about answers and frames
come first. -/

namespace Sys2Proof.Machine

/-! ### Frames -/

section Frames

variable {s t u : State} {W W' : List Field}

theorem Frame.refl (s : State) : Frame [] s s := by
  intro f _
  cases f with
  | bytes sp => exact fun _ => rfl
  | _ => rfl

theorem Field.same_trans {f : Field} (hu : f.same s u) (ht : f.same u t) : f.same s t := by
  cases f with
  | bytes sp => exact fun a => (ht a).trans (hu a)
  | _ => exact Eq.trans ht hu

theorem Frame.trans (hu : Frame W s u) (ht : Frame W' u t) : Frame (W ++ W') s t := by
  intro f hf
  obtain ⟨hW, hW'⟩ : f ∉ W ∧ f ∉ W' := by simpa using hf
  exact Field.same_trans (hu f hW) (ht f hW')

theorem Frame.mono (h : Frame W s t) (hsub : W ⊆ W') : Frame W' s t := fun f hf => h f fun hW => hf (hsub hW)

/-- A frame may drop the listed pieces that are the same after all. -/
theorem Frame.of_same (h : Frame W s t) (hs : ∀ f ∈ W, f ∉ W' → f.same s t) : Frame W' s t := by
  intro f hf
  by_cases hW : f ∈ W
  · exact hs f hW hf
  · exact h f hW

/-- Replacing a buffer changes its counters, its drop count and its slots alone. -/
theorem frame_setCbc (s : State) (i : Inst) (c : Cbc) :
    Frame [.rd i, .wr i, .drop i, .bytes (.cbMem i)] s (s.setCbc i c) := by
  intro f hf
  cases f with
  | rd j | wr j | drop j =>
    have hj : j ≠ i := by simpa using hf
    simp [Field.same, hj]
  | bytes sp =>
    refine fun a => readByte_congr ?_ (State.setCbc_epoch s i c)
    cases sp with
    | cbMem j =>
      have hj : j ≠ i := by simpa using hf
      simp [State.mem, hj]
    | cmdBuf | sample => simp [State.mem]
  | _ => cases i <;> rfl

/-- A push changes the write count of its buffer and one of its slots (R124). -/
theorem frame_of_cbPush {i : Inst} {v : Byte} (h : s.cbPush i v = some u) :
    Frame [.wr i, .bytes (.cbMem i)] s u := by
  obtain ⟨-, rfl⟩ := state_of_cbPush h
  refine (frame_setCbc s i _).of_same ?_
  simp [Field.same]

/-- A pop changes the read count of its buffer, and no slot (R125). -/
theorem frame_of_cbPop {i : Inst} {v : Byte} (h : s.cbPop i = some (v, u)) : Frame [.rd i] s u := by
  have hbytes := readByte_cbPop h (.cbMem i)
  obtain ⟨-, -, rfl⟩ := state_of_cbPop h
  refine (frame_setCbc s i _).of_same ?_
  simp [Field.same, hbytes]

/-- A drop changes the drop count alone (R24). -/
theorem frame_countDrop (s : State) (i : Inst) : Frame [.drop i] s (s.countDrop i) := by
  have hbytes (a : Nat) : (s.countDrop i).readByte (.cbMem i) a = s.readByte (.cbMem i) a :=
    readByte_congr (by simp [State.mem, State.countDrop]) (State.setCbc_epoch ..)
  rw [State.countDrop] at hbytes ⊢
  refine (frame_setCbc s i _).of_same ?_
  simp [Field.same, hbytes]

/-- Writing the wire output and the responses changes nothing else (R38, R82). -/
theorem frame_outputs (s : State) (l : List Byte) (r : List Response) :
    Frame [.wireOut, .responses] s { s with wireOut := l, responses := r } := by
  intro f hf
  cases f with
  | wireOut | responses => simp at hf
  | rd i | wr i | drop i => cases i <;> rfl
  | bytes sp => exact fun a => readByte_congr (by cases sp with | cbMem i => cases i <;> rfl | _ => rfl) rfl
  | _ => rfl

/-- Adding to the wire output changes nothing else (R38). -/
theorem frame_wireOut (s : State) (l : List Byte) : Frame [.wireOut] s { s with wireOut := l } :=
  (frame_outputs s l s.responses).of_same (by simp [Field.same])

/-- A response changes the responses and the running port's hold alone (R8, R82). -/
theorem frame_respond (s : State) (st : Status) (d : Byte) : Frame [.responses, .pendOf s.port] s (s.respond st d) := by
  have hresp : Frame [.responses] (s.setPend s.port none) (s.respond st d) :=
    (frame_outputs (s.setPend s.port none) s.wireOut _).of_same (by simp [Field.same])
  exact ((frame_setPend s s.port none).trans hresp).mono List.perm_append_comm.subset

theorem readByte_respond (s : State) (st : Status) (d : Byte) (sp : Space) (a : Nat) :
    (s.respond st d).readByte sp a = s.readByte sp a :=
  frame_respond s st d (.bytes sp) (by simp) a

/-- After a push the slot of the write count holds the byte (R124). -/
theorem readByte_slot_of_cbPush {i : Inst} {v : Byte} (h : s.cbPush i v = some u) :
    u.readByte (.cbMem i) (slotOf (s.cfg.cap i) (s.cbc i).wr) = v := by
  rw [readByte_cbPush h, if_pos ⟨rfl, rfl⟩]

/-- A push leaves every other slot alone (R124, R23). -/
theorem readByte_other_of_cbPush {i : Inst} {v : Byte} (h : s.cbPush i v = some u) {x : Nat}
    (hx : x ≠ slotOf (s.cfg.cap i) (s.cbc i).wr) : u.readByte (.cbMem i) x = s.readByte (.cbMem i) x := by
  rw [readByte_cbPush h, if_neg fun hslot => hx hslot.2]

end Frames

/-! ### Answers (R8, R82) -/

section Answer

variable {s u : State}

/-- An operation that first changes the listed pieces, neither the responses nor the port among them, and then responds,
answers with that frame. -/
theorem Frame.answers {W : List Field} (h : Frame W s u) (st : Status) (d : Byte) (hr : Field.responses ∉ W)
    (hp : Field.port ∉ W) : Answers (statusCode st) d W s (u.respond st d) := by
  have hresp : u.responses = s.responses := h .responses hr
  have hport : u.port = s.port := h .port hp
  refine ⟨?_, ?_, ?_⟩
  · rw [State.respond_responses, hresp, hport, responseWord]
  · rw [pendOf_respond, if_pos hport.symm]
  · exact (h.trans (hport ▸ frame_respond u st d)).mono List.perm_append_comm.subset

/-- An operation that only responds answers, and changes nothing. -/
theorem completes_respond {i : Instr} (st : Status) {d : Byte} (h : exec i s = .next (s.respond st d)) :
    Completes i s (Answers (statusCode st) d [] s) :=
  ⟨_, h, Frame.answers (Frame.refl s) st d (by simp) (by simp)⟩

/-- `boolByte` writes a truth value as 1 or 0 (R7). -/
theorem boolByte_eq_ite {b : Bool} {p : Prop} [Decidable p] (h : b = true ↔ p) :
    boolByte b = if p then 1#8 else 0#8 := by
  simp [boolByte, h]

/-- The command words of an opcode decode to the row that the opcode map selects (R80, R84). -/
theorem encodes_of_decodeOpcode {o : Byte} {mk : Byte → Byte → Instr} (h : ∀ a b, decodeOpcode o a b = mk a b) :
    Encodes o mk := fun a b => (decodeCommand_mkCommand o a b).trans (h a b)

end Answer

/-! ### CB_PUSH.RX (R130) -/

section PushRx

variable {s : State} (a : Byte)

theorem exec_cbPushRx_of_disabled (h : s.rxEn = false) :
    exec (.cbPushRx a) s = .next (s.respond .disabled 0x00#8) := by
  simp [exec, execCbPushRx, h]

theorem exec_cbPushRx_of_full (h : s.rxEn = true) (hf : s.cbFull .rx = true) :
    exec (.cbPushRx a) s = .next ((s.countDrop .rx).respond .full 0x00#8) := by
  simp [exec, execCbPushRx, h, hf]

theorem exec_cbPushRx_of_room {u : State} (h : s.rxEn = true) (hu : s.cbPush .rx a = some u) :
    exec (.cbPushRx a) s = .next (u.respond .ok 0x00#8) := by
  simp [exec, execCbPushRx, h, (state_of_cbPush hu).1, hu, State.pushResult]

end PushRx

/-- A drop adds 1 to the drop count, which stops at `0xFF` (R24). -/
theorem drop_countDrop (s : State) (i : Inst) :
    ((s.countDrop i).cbc i).drop = if (s.cbc i).drop = 0xFF#8 then 0xFF#8 else (s.cbc i).drop + 1#8 := by
  simp only [State.countDrop, State.setCbc_cbc, if_true, satSucc]
  split
  · next h => exact h
  · rfl

/-- Settles O5: the three branches of R130, by whether receive is enabled and whether RX is full. -/
theorem cbPushRxResult : Obligations.CbPushRxResult := by
  refine ⟨encodes_of_decodeOpcode fun _ _ => rfl, fun s a => ⟨fun hx => ?_, fun hx hf => ?_, fun hx hf => ?_⟩⟩
  · exact completes_respond .disabled (exec_cbPushRx_of_disabled a hx)
  · exact ⟨_, exec_cbPushRx_of_full a hx hf, drop_countDrop s .rx,
      (frame_countDrop s .rx).answers .full 0x00#8 (by simp) (by simp)⟩
  · obtain ⟨u, hu⟩ := Option.isSome_iff_exists.mp (cbPush_isSome s .rx a hf)
    have hwr : u.cbRx.wr = s.cbRx.wr + 1#8 := congrArg Cbc.wr (cbc_of_cbPush hu .rx)
    exact ⟨_, exec_cbPushRx_of_room a hx hu, hwr, (readByte_respond ..).trans (readByte_slot_of_cbPush hu),
      fun x hne => (readByte_respond ..).trans (readByte_other_of_cbPush hu hne),
      (frame_of_cbPush hu).answers .ok 0x00#8 (by simp) (by simp)⟩

/-! ### CB_POP.TX (R131) -/

section PopTx

variable {s : State}

theorem exec_cbPopTx_of_empty (h : s.cbEmpty .tx = true) : exec .cbPopTx s = .next (s.respond .empty 0x00#8) := by
  simp [exec, execCbPopTx, h]

theorem exec_cbPopTx_of_cbPop {v : Byte} {u : State} (h : s.cbPop .tx = some (v, u)) :
    exec .cbPopTx s = .next ({ u with wireOut := u.wireOut ++ [v] }.respond .ok v) := by
  simp [exec, execCbPopTx, (state_of_cbPop h).1, h]

end PopTx

/-- Settles O6: the two branches of R131, by whether TX is empty. -/
theorem cbPopTxResult : Obligations.CbPopTxResult := by
  refine ⟨encodes_of_decodeOpcode fun _ _ => rfl, fun s => ⟨fun he => ?_, fun he => ?_⟩⟩
  · exact completes_respond .empty (exec_cbPopTx_of_empty he)
  · obtain ⟨⟨v, u⟩, hu⟩ := Option.isSome_iff_exists.mp (cbPop_isSome s .tx he)
    have hexec := exec_cbPopTx_of_cbPop hu
    have hframe := (frame_of_cbPop hu).trans (frame_wireOut u (u.wireOut ++ [v]))
    obtain ⟨-, rfl, rfl⟩ := state_of_cbPop hu
    exact ⟨_, hexec, rfl, rfl, hframe.answers .ok _ (by simp) (by simp)⟩

/-! ### The reads (R132 to R135) -/

/-- Settles O7: each read responds with the size, or with whether the counters are equal. -/
theorem cbSizeAndEmptyRead : Obligations.CbSizeAndEmptyRead := by
  refine ⟨?_, ?_, ?_, ?_, ?_, ?_, ?_, ?_, fun s => ?reads⟩
  case reads =>
    have hempty (i : Inst) :
        boolByte (s.cbEmpty i) = if (s.cbc i).wr = (s.cbc i).rd then 1#8 else 0#8 := boolByte_eq_ite beq_iff_eq
    exact ⟨completes_respond .ok rfl, completes_respond .ok rfl, completes_respond .ok rfl,
      hempty .eq ▸ completes_respond .ok rfl, hempty .rx ▸ completes_respond .ok rfl,
      hempty .tx ▸ completes_respond .ok rfl⟩
  all_goals exact encodes_of_decodeOpcode fun _ _ => rfl

/-- Settles O8: each read responds with whether the size has reached the capacity, or with the drop count. -/
theorem cbFullAndDropsRead : Obligations.CbFullAndDropsRead := by
  refine ⟨?_, ?_, ?_, ?_, ?_, ?_, ?_, ?_, fun s hv => ?reads⟩
  case reads =>
    have hfull (i : Inst) :
        boolByte (s.cbFull i) = if s.cfg.cap i ≤ (s.cbSize i).toNat then 1#8 else 0#8 :=
      boolByte_eq_ite (isFull_iff (Config.cap_mem hv i) _)
    exact ⟨hfull .eq ▸ completes_respond .ok rfl, hfull .rx ▸ completes_respond .ok rfl,
      hfull .tx ▸ completes_respond .ok rfl, completes_respond .ok rfl, completes_respond .ok rfl,
      completes_respond .ok rfl⟩
  all_goals exact encodes_of_decodeOpcode fun _ _ => rfl

/-! ### First in, first out (R126 to R128) -/

/-- Settles O12: an empty buffer has size 0, a full one at least its capacity, which is not 0. -/
theorem neverEmptyAndFull : Obligations.NeverEmptyAndFull := by
  rintro s i hv ⟨he, hf⟩
  have hzero : (s.cbc i).size = 0#8 := (isEmpty_iff _).mp he
  have hcap : s.cfg.cap i ≤ 0 := by simpa [hzero] using (isFull_iff (Config.cap_mem hv i) _).mp hf
  have hpos := Config.cap_pos hv i
  omega

/-- A buffer is empty exactly where it holds nothing (R122). -/
theorem cbEmpty_iff_queue_eq_nil {s : State} {i : Inst} : s.cbEmpty i = true ↔ s.queue i = [] := by
  rw [← List.length_eq_zero_iff, length_queue, State.cbEmpty, isEmpty_iff, ← BitVec.toNat_inj]
  rfl

/-- As many pops as there are bytes `vs` at the old end give exactly them, in order, and leave what is behind them. -/
theorem popMany_of_queue {i : Inst} {vs rest : List Byte} {t : State} (h : t.queue i = vs ++ rest) :
    ∃ u, State.popMany i vs.length t = some (vs, u) ∧ u.queue i = rest := by
  induction vs generalizing t with
  | nil => exact ⟨t, rfl, h⟩
  | cons v vs ih =>
    have hne : t.cbEmpty i = false := by
      rw [← Bool.not_eq_true, cbEmpty_iff_queue_eq_nil, h]
      exact List.cons_ne_nil _ _
    obtain ⟨⟨w, t'⟩, hpop⟩ := Option.isSome_iff_exists.mp (cbPop_isSome t i hne)
    obtain ⟨rfl, htail⟩ : w = v ∧ t'.queue i = vs ++ rest := List.cons.inj ((queue_pop hpop).symm.trans h)
    obtain ⟨u, hmany, hrest⟩ := ih htail
    exact ⟨u, by simp [State.popMany, hpop, hmany], hrest⟩

/-- Settles O9: the pushes find room and make the queue the list that is pushed; the pops take that list from it. -/
theorem pushThenPopIsFifo : Obligations.PushThenPopIsFifo := by
  intro s i vs hv he hlen
  have hzero : s.cbSize i = 0#8 := (isEmpty_iff _).mp he
  obtain ⟨t, hpush⟩ := cbPushAll_isSome (i := i) (vs := vs) hv (by simpa [hzero] using hlen)
  have hqueue : t.queue i = vs ++ [] := by simpa [queue_of_empty he] using queue_pushAll hv hpush i
  obtain ⟨u, hpop, hrest⟩ := popMany_of_queue hqueue
  exact ⟨t, u, hpush, hpop, cbEmpty_iff_queue_eq_nil.mpr hrest⟩

end Sys2Proof.Machine
end

section
/-! PROOFS of the statements about 42_event_queue.md: what EQ_TRY_PUSH and EQ_PUSH do (R152 to R154), what a held
EQ_PUSH does at its port's transition (R155, R157), and what EV_MAKE, EV_KIND and EV_INFO answer (R160 to R162). -/

namespace Sys2Proof.Machine

/-! ### Pushing one event (R152, R153) -/

/-- From `s` to `t` the running port's operation put the event `a` in the slot of the write count of EQ, as it is,
answered OK, and changed nothing else. -/
def EventQueued (a : Byte) (s t : State) : Prop :=
  t.cbEq.wr = s.cbEq.wr + 1#8 ∧
  t.readByte (.cbMem .eq) (slotOf s.cfg.capEq s.cbEq.wr) = a ∧
  (∀ x, x ≠ slotOf s.cfg.capEq s.cbEq.wr → t.readByte (.cbMem .eq) x = s.readByte (.cbMem .eq) x) ∧
  Answers 0x00#8 0#8 [.wr .eq, .bytes (.cbMem .eq)] s t

section Push

variable {s u : State} {a : Byte} (b : Byte)

/-- A push to EQ with the response OK queues its event (R124, R152, R153). -/
theorem eventQueued_of_cbPush (hu : s.cbPush .eq a = some u) : EventQueued a s (u.respond .ok 0x00#8) := by
  have hwr : u.cbEq.wr = s.cbEq.wr + 1#8 := congrArg Cbc.wr (cbc_of_cbPush hu .eq)
  exact ⟨hwr, (readByte_respond ..).trans (readByte_slot_of_cbPush hu),
    fun x hne => (readByte_respond ..).trans (readByte_other_of_cbPush hu hne),
    (frame_of_cbPush hu).answers .ok 0x00#8 (by simp) (by simp)⟩

theorem exec_eqTryPush_of_full (hf : s.cbFull .eq = true) :
    exec (.eqTryPush a) s = .next ((s.countDrop .eq).respond .full 0x00#8) := by
  simp [exec, execEqTryPush, hf]

theorem exec_eqTryPush_of_room (hu : s.cbPush .eq a = some u) :
    exec (.eqTryPush a) s = .next (u.respond .ok 0x00#8) := by
  simp [exec, execEqTryPush, (state_of_cbPush hu).1, hu, State.pushResult]

theorem exec_eqPush_of_room (hu : s.cbPush .eq a = some u) :
    exec (.eqPush a b) s = .next (u.respond .ok 0x00#8) := by
  simp [exec, execEqPush, (state_of_cbPush hu).1, hu, State.pushResult]

variable {b}

/-- On a full queue a finite wait that has expired times out (R154, R157). -/
theorem exec_eqPush_of_expired (hf : s.cbFull .eq = true) (hx : s.portExpired = true ∧ b ≠ 0#8) :
    exec (.eqPush a b) s = .next (s.respond .timeout 0x00#8) := by
  simp [exec, execEqPush, hf, hx]

/-- On a full queue an infinite wait, or one that has not expired, holds its port (R153, R154). -/
theorem exec_eqPush_of_waiting (hf : s.cbFull .eq = true) (hx : ¬ (s.portExpired = true ∧ b ≠ 0#8)) :
    exec (.eqPush a b) s = .next (s.hold (mkCommand 0x61#8 a b)) := by
  simp only [exec, execEqPush, hf]
  rw [if_neg (by decide), if_neg fun h => hx h.symm]

end Push

/-- Settles O13: the two branches of R152, by whether EQ is full. -/
theorem eqTryPushResult : Obligations.EqTryPushResult := by
  refine ⟨encodes_of_decodeOpcode fun _ _ => rfl, fun s a => ⟨fun hf => ?_, fun hf => ?_⟩⟩
  · exact ⟨_, exec_eqTryPush_of_full hf, drop_countDrop s .eq,
      (frame_countDrop s .eq).answers .full 0x00#8 (by simp) (by simp)⟩
  · obtain ⟨u, hu⟩ := Option.isSome_iff_exists.mp (cbPush_isSome s .eq a hf)
    exact ⟨_, exec_eqTryPush_of_room hu, eventQueued_of_cbPush hu⟩

/-- Settles O14: room in EQ decides first, then whether a finite wait has expired. -/
theorem eqPushResult : Obligations.EqPushResult := by
  refine ⟨encodes_of_decodeOpcode fun _ _ => rfl, fun s a b => ⟨fun hf => ?_, fun hf hb hx => ?_, fun hf hw => ?_⟩⟩
  · obtain ⟨u, hu⟩ := Option.isSome_iff_exists.mp (cbPush_isSome s .eq a hf)
    exact ⟨_, exec_eqPush_of_room b hu, eventQueued_of_cbPush hu⟩
  · exact completes_respond .timeout (exec_eqPush_of_expired hf ⟨hx, hb⟩)
  · have hwait : ¬ (s.portExpired = true ∧ b ≠ 0#8) := by
      rintro ⟨hx, hb⟩
      simp [hx, hb] at hw
    exact ⟨_, exec_eqPush_of_waiting hf hwait, by simp, frame_setPend s s.port _⟩

/-! ### A held EQ_PUSH (R155, R157) -/

/-- While a port holds an operation, its flag is that operation's (R36). -/
theorem portExpired_of_held {s : State} {h : Held} (hp : s.pendOf s.port = some h) : s.portExpired = h.expired := by
  simp [State.portExpired, hp]

/-- A held EQ_PUSH runs EQ_PUSH again on its own port (R155). -/
theorem transition_resume_eqPush {s : State} {p : Port} {a b : Byte} {x : Bool} (hr : s.rstAsserted = false)
    (hp : s.pendOf p = some ⟨mkCommand 0x61#8 a b, x⟩) :
    transition (.resume p) s = exec (.eqPush a b) { s with port := p } := by
  rw [transition_resume hr, resume_of_held hp, decodeCommand_mkCommand]
  rfl

/-- Settles O15: the held operation runs as at its issue, with the flag that its port keeps. -/
theorem heldPushTransition : Obligations.HeldPushTransition := by
  intro s p a b x hv hr hp
  rw [transition_resume_eqPush hr hp]
  have hflag : State.portExpired { s with port := p } = x := portExpired_of_held (s := { s with port := p }) hp
  have hsame : State.queue { s with port := p } .eq = s.queue .eq := queue_of_same
  cases hf : s.cbFull .eq with
  | false =>
    obtain ⟨u, hu⟩ := Option.isSome_iff_exists.mp (cbPush_isSome { s with port := p } .eq a hf)
    obtain ⟨-, -, -, hresp, hidle, -⟩ := eventQueued_of_cbPush hu
    have hqueue : (u.respond .ok 0x00#8).queue .eq = s.queue .eq ++ [a] := by
      rw [queue_respond, queue_push (s := { s with port := p }) hv hu, hsame]
    exact ⟨_, exec_eqPush_of_room b hu, fun _ => ⟨hqueue, hresp, hidle⟩, by simp, by simp⟩
  | true =>
    by_cases hx : x = true ∧ b ≠ 0#8
    · refine ⟨_, exec_eqPush_of_expired hf (by rwa [hflag]), by simp, fun _ _ => ⟨?_, rfl, by simp⟩,
        fun _ hw => absurd hx hw⟩
      rw [queue_respond, hsame]
    · refine ⟨_, exec_eqPush_of_waiting hf (by rwa [hflag]), by simp, fun _ he => absurd he hx,
        fun _ _ => ⟨queue_of_same, rfl, ?_⟩⟩
      rw [pendOf_hold, if_pos rfl, hflag, hp]

/-! ### The event codec (R160 to R162) -/

/-- Each EV_MAKE row answers its kind, in position, over the masked info (R160). -/
theorem exec_evMakeRows {r : Byte × Byte × (Byte → Instr)} (hr : r ∈ evMakeRows) (a : Byte) (s : State) :
    exec (r.2.2 a) s = .next (s.respond .ok (r.2.1 ||| (a &&& 0x1F#8))) := by
  fin_cases hr <;> rfl

/-- Each EV_MAKE row is the row of its opcode (R84, R160). -/
theorem encodes_evMakeRows {r : Byte × Byte × (Byte → Instr)} (hr : r ∈ evMakeRows) :
    Encodes r.1 fun a _ => r.2.2 a := by
  fin_cases hr <;> exact encodes_of_decodeOpcode fun _ _ => rfl

/-- Settles O17: each codec operation only responds. -/
theorem eventCodecResult : Obligations.EventCodecResult :=
  ⟨fun _ hr => encodes_evMakeRows hr, encodes_of_decodeOpcode fun _ _ => rfl, encodes_of_decodeOpcode fun _ _ => rfl,
    fun s a => ⟨fun _ hr => completes_respond .ok (exec_evMakeRows hr a s), completes_respond .ok rfl,
      completes_respond .ok rfl⟩⟩

end Sys2Proof.Machine
end

section
/-! PROOFS of the statements about 43_frame_codec.md: what the frame codec answers (R180 to R184), the laws of the
checksum (R185 to R187), and what the checksum generator does, alone and over several operations (R190 to R194, R350). -/

namespace Sys2Proof.Machine

/-! ### Writing one register, and a fault (R310) -/

section Registers

variable (s : State)

/-- Writing `CK_ACC` and FAULT changes nothing else (R25, R33). -/
theorem frame_registers (v x : Byte) : Frame [.ckAcc, .fault] s { s with ckAcc := v, fault := x } := by
  intro f hf
  cases f with
  | ckAcc | fault => simp at hf
  | rd i | wr i | drop i => cases i <;> rfl
  | bytes sp => exact fun a => readByte_congr (by cases sp with | cbMem i => cases i <;> rfl | _ => rfl) rfl
  | _ => rfl

theorem frame_ckAcc (v : Byte) : Frame [.ckAcc] s { s with ckAcc := v } :=
  (frame_registers s v s.fault).of_same (by simp [Field.same])

theorem frame_fault (x : Byte) : Frame [.fault] s { s with fault := x } :=
  (frame_registers s s.ckAcc x).of_same (by simp [Field.same])

/-- A fault is an answer with the status of its cause, and changes FAULT alone (R310). -/
theorem answers_raiseFault (c : Cause) : Answers (statusCode (causeStatus c)) 0x00#8 [.fault] s (s.raiseFault c) :=
  (frame_fault s (s.fault ||| causeBit c)).answers (causeStatus c) 0x00#8 (by simp) (by simp)

end Registers

/-! ### Payload lengths (R92, R94) -/

/-- `log2` is defined on the powers of two up to 32 alone (R94). -/
theorem log2Length_eq_some_iff {a : Byte} {sel : BitVec 3} :
    log2Length a = some sel ↔ sel.toNat ≤ 5 ∧ a.toNat = 2 ^ sel.toNat := by
  constructor
  · intro h
    unfold log2Length at h
    split_ifs at h with ha ha ha ha ha ha
    all_goals
      obtain rfl := Option.some.inj h
      exact ⟨by decide, congrArg BitVec.toNat ha⟩
  · rintro ⟨hle, hpow⟩
    obtain rfl : a = BitVec.ofNat 8 (2 ^ sel.toNat) := by rw [← hpow, BitVec.ofNat_toNat, BitVec.setWidth_eq]
    clear hpow
    revert sel; decide

theorem log2Length_of_pow {a : Byte} {k : Nat} (hk : k ≤ 5) (ha : a.toNat = 2 ^ k) :
    log2Length a = some (BitVec.ofNat 3 k) := by
  have hsel : (BitVec.ofNat 3 k).toNat = k := Nat.mod_eq_of_lt (by omega)
  rw [log2Length_eq_some_iff, hsel]
  exact ⟨hk, ha⟩

theorem log2Length_eq_none {a : Byte} (h : ∀ k : Nat, k ≤ 5 → a.toNat ≠ 2 ^ k) : log2Length a = none :=
  Option.eq_none_iff_forall_ne_some.mpr fun sel hsel =>
    have ⟨hle, hpow⟩ := log2Length_eq_some_iff.mp hsel
    h sel.toNat hle hpow

/-- A frame byte's payload length is 2 to the power of its selector, reserved selectors included (R92, R183). -/
theorem payloadLength_eq_pow (f : Byte) : payloadLength f = BitVec.ofNat 8 (2 ^ (selOf f).toNat) := by
  revert f; decide

/-! ### The fields of a frame byte (R90, R93) -/

theorem messageClass_mkFrame (c : BitVec 2) (l x : BitVec 3) : messageClass (mkFrame c l x) = classValue c := by
  revert c l x; decide

theorem commandId_mkFrame (c : BitVec 2) (l x : BitVec 3) : commandId (mkFrame c l x) = x.setWidth 8 := by
  revert c l x; decide

/-- What R94 puts together is the frame byte of R90, with the content cut to its 3 bits. -/
theorem makeFrame_eq_mkFrame (c : BitVec 2) (sel : BitVec 3) (b : Byte) :
    makeFrame (classValue c) sel b = mkFrame c sel (b.setWidth 3) := by
  have hmask : b &&& 0x07#8 = (b.setWidth 3).setWidth 8 := by revert b; decide
  rw [makeFrame, hmask]
  generalize b.setWidth 3 = x
  revert c sel x; decide

/-! ### FR_MAKE (R180) -/

/-- Each FR_MAKE row builds frames of the class that it lists (R91, R180). -/
theorem exec_frMakeRows {r : Byte × Byte × (Byte → Byte → Instr)} (hr : r ∈ frMakeRows) :
    ∃ c, r.2.1 = classValue c ∧ ∀ a b s, exec (r.2.2 a b) s = makeOp c a b s := by
  fin_cases hr
  · exact ⟨0#2, rfl, fun _ _ _ => rfl⟩
  · exact ⟨1#2, rfl, fun _ _ _ => rfl⟩
  · exact ⟨2#2, rfl, fun _ _ _ => rfl⟩
  · exact ⟨3#2, rfl, fun _ _ _ => rfl⟩

/-- Each FR_MAKE row is the row of its opcode (R84, R180). -/
theorem encodes_frMakeRows {r : Byte × Byte × (Byte → Byte → Instr)} (hr : r ∈ frMakeRows) : Encodes r.1 r.2.2 := by
  fin_cases hr <;> exact encodes_of_decodeOpcode fun _ _ => rfl

theorem makeOp_of_length {a : Byte} {sel : BitVec 3} (h : log2Length a = some sel) (c : BitVec 2) (b : Byte)
    (s : State) : makeOp c a b s = .next (s.respond .ok (makeFrame (classValue c) sel b)) := by
  simp [makeOp, h]

theorem makeOp_of_no_length {a : Byte} (h : log2Length a = none) (c : BitVec 2) (b : Byte) (s : State) :
    makeOp c a b s = .next (s.raiseFault .illegalOperand) := by
  simp [makeOp, h]

/-- Settles O18: the two branches of R180, by whether the length has a logarithm. -/
theorem frMakeResult : Obligations.FrMakeResult := by
  refine ⟨fun _ hr => encodes_frMakeRows hr, fun r hr s a b => ?_⟩
  obtain ⟨c, hclass, hexec⟩ := exec_frMakeRows hr
  simp only [hclass]
  refine ⟨fun k hk ha => ?_, fun ha => ?_⟩
  · have hsel : (BitVec.ofNat 3 k).setWidth 8 = BitVec.ofNat 8 k :=
      BitVec.eq_of_toNat_eq (by simp only [BitVec.toNat_setWidth, BitVec.toNat_ofNat]; omega)
    rw [← hsel]
    exact completes_respond .ok ((hexec a b s).trans (makeOp_of_length (log2Length_of_pow hk ha) c b s))
  · exact ⟨_, (hexec a b s).trans (makeOp_of_no_length (log2Length_eq_none ha) c b s), rfl,
      answers_raiseFault s .illegalOperand⟩

/-! ### Reading a frame byte (R181 to R184) -/

theorem completes_frClass (f : Byte) (s : State) : Completes (.frClass f) s (Answers 0x00#8 (messageClass f) [] s) :=
  completes_respond .ok rfl

theorem completes_frContent (f : Byte) (s : State) : Completes (.frContent f) s (Answers 0x00#8 (commandId f) [] s) :=
  completes_respond .ok rfl

theorem completes_frLength (f : Byte) (s : State) :
    Completes (.frLength f) s (Answers 0x00#8 (BitVec.ofNat 8 (2 ^ (selOf f).toNat)) [] s) :=
  payloadLength_eq_pow f ▸ completes_respond .ok rfl

/-- Settles O19: each read responds with its field. -/
theorem frameFieldsRead : Obligations.FrameFieldsRead :=
  ⟨encodes_of_decodeOpcode fun _ _ => rfl, encodes_of_decodeOpcode fun _ _ => rfl,
    encodes_of_decodeOpcode fun _ _ => rfl,
    fun s a => ⟨completes_frClass a s, completes_frContent a s, completes_frLength a s⟩⟩

/-- The three reads take the fields of a frame byte out again. -/
theorem completes_reads_mkFrame (c : BitVec 2) (l x : BitVec 3) (s : State) :
    Completes (.frClass (mkFrame c l x)) s (Answers 0x00#8 (classValue c) [] s) ∧
    Completes (.frLength (mkFrame c l x)) s (Answers 0x00#8 (BitVec.ofNat 8 (2 ^ l.toNat)) [] s) ∧
    Completes (.frContent (mkFrame c l x)) s (Answers 0x00#8 (x.setWidth 8) [] s) :=
  ⟨messageClass_mkFrame c l x ▸ completes_frClass _ s,
    by simpa only [selOf_mkFrame] using completes_frLength (mkFrame c l x) s,
    commandId_mkFrame c l x ▸ completes_frContent _ s⟩

/-- Settles O20: the frame byte is put together from the class, the selector `k` and the content, and each read takes
its own field out again. -/
theorem frameCodecRoundTrip : Obligations.FrameCodecRoundTrip := by
  intro r hr s k x hk hx
  obtain ⟨c, hclass, hexec⟩ := exec_frMakeRows hr
  have hpow : (BitVec.ofNat 8 (2 ^ k)).toNat = 2 ^ k :=
    Nat.mod_eq_of_lt (Nat.pow_lt_pow_right (by decide) (by omega))
  have hsel : (BitVec.ofNat 3 k).toNat = k := Nat.mod_eq_of_lt (by omega)
  have hcontent : (x.setWidth 3).setWidth 8 = x :=
    BitVec.eq_of_toNat_eq (by simp only [BitVec.toNat_setWidth]; omega)
  have hmake := makeOp_of_length (log2Length_of_pow hk hpow) c x s
  rw [makeFrame_eq_mkFrame] at hmake
  obtain ⟨t, ht, hanswers⟩ := completes_respond .ok ((hexec _ x s).trans hmake)
  have hreads := completes_reads_mkFrame c (BitVec.ofNat 3 k) (x.setWidth 3) t
  rw [← hclass, hsel, hcontent] at hreads
  exact ⟨_, t, ht, hanswers, hreads⟩

/-! ### The checksum (R185 to R187) -/

section Checksum

variable {seed seed' v : Byte} {bytes : List Byte}

@[simp] theorem checksum_nil : checksum seed [] = seed := rfl

@[simp] theorem checksum_cons : checksum seed (v :: bytes) = checksum (seed ^^^ v) bytes := rfl

theorem checksum_append (seed : Byte) (bytes rest : List Byte) :
    checksum seed (bytes ++ rest) = checksum (checksum seed bytes) rest := List.foldl_append

/-- Bytes with one more behind them fold to 0 exactly where that byte is their checksum (R186, R187). -/
theorem checksum_concat_eq_zero_iff : checksum seed (bytes ++ [v]) = 0#8 ↔ v = checksum seed bytes := by
  rw [checksum_append, checksum_cons, checksum_nil, BitVec.xor_eq_zero_iff, eq_comm]

/-- The fold loses nothing of its seed. -/
theorem checksum_seed_inj : checksum seed bytes = checksum seed' bytes ↔ seed = seed' := by
  induction bytes generalizing seed seed' with
  | nil => rfl
  | cons w bytes ih => rw [checksum_cons, checksum_cons, ih, BitVec.xor_left_inj]

/-- Changing one byte changes the fold (R187). -/
theorem checksum_set_ne {j : Nat} (hj : j < bytes.length) (hv : bytes[j]? ≠ some v) :
    checksum seed (bytes.set j v) ≠ checksum seed bytes := by
  induction bytes generalizing seed j with
  | nil => exact absurd hj (Nat.not_lt_zero j)
  | cons w bytes ih =>
    cases j with
    | zero =>
      have hw : w ≠ v := by simpa using hv
      rw [List.set_cons_zero, checksum_cons, checksum_cons, Ne, checksum_seed_inj, BitVec.xor_right_inj]
      exact hw.symm
    | succ j => exact ih (Nat.lt_of_succ_lt_succ hj) (by simpa using hv)

end Checksum

/-- Settles O22: the byte that is appended is the checksum. -/
theorem checksumClosure : Obligations.ChecksumClosure := fun _ => checksum_concat_eq_zero_iff.mpr rfl

/-- Settles O23: the fold of the changed message differs from that of the message, which is 0. -/
theorem oneCorruptByteIsCaught : Obligations.OneCorruptByteIsCaught := by
  intro f k p
  refine ⟨checksum_concat_eq_zero_iff (bytes := f :: p), fun hzero j v hj hv => ?_⟩
  have hchanged : checksum (0xFF#8 ^^^ f) ((p ++ [k]).set j v) ≠ checksum (0xFF#8 ^^^ f) (p ++ [k]) :=
    checksum_set_ne hj hv
  exact fun hset => hchanged (hset.trans hzero.symm)

/-! ### The checksum generator (R190 to R194, R350) -/

/-- An operation that loads `CK_ACC` answers the value, and changes nothing else (R190 to R192). -/
theorem completes_loadCk {i : Instr} {s : State} {v : Byte} (h : exec i s = loadCk v s) :
    Completes i s (fun t => t.ckAcc = v ∧ Answers 0x00#8 v [.ckAcc] s t) :=
  ⟨_, h, rfl, (frame_ckAcc s v).answers .ok v (by simp) (by simp)⟩

theorem completes_ckCheck (s : State) (a : Byte) :
    Completes (.ckCheck a) s (Answers 0x00#8 (if s.ckAcc = a then 1#8 else 0#8) [] s) := by
  have hbool : boolByte (s.ckAcc == a) = if s.ckAcc = a then 1#8 else 0#8 := boolByte_eq_ite beq_iff_eq
  exact hbool ▸ completes_respond .ok rfl

/-- Settles O21: three operations load `CK_ACC`, and two only respond. -/
theorem checksumGeneratorResult : Obligations.ChecksumGeneratorResult := by
  refine ⟨?_, ?_, ?_, ?_, ?_, fun _ => rfl, fun s a => ?operations⟩
  case operations =>
    exact ⟨completes_loadCk rfl, completes_loadCk rfl, completes_loadCk rfl, completes_respond .ok rfl,
      completes_ckCheck s a⟩
  all_goals exact encodes_of_decodeOpcode fun _ _ => rfl

theorem execAll_cons_of_next {i : Instr} {rest : List Instr} {s t : State} (h : exec i s = .next t) :
    execAll (i :: rest) s = execAll rest t := by
  simp [execAll, h]

/-- CK_FOLD of each byte computes the fold from the value that `CK_ACC` has (R192). -/
theorem execAll_ckFold (bytes : List Byte) (s : State) :
    ∃ t, execAll (bytes.map .ckFold) s = .next t ∧ t.ckAcc = checksum s.ckAcc bytes := by
  induction bytes generalizing s with
  | nil => exact ⟨s, rfl, rfl⟩
  | cons v bytes ih =>
    obtain ⟨u, hu, hacc, -⟩ := completes_loadCk (i := .ckFold v) (s := s) rfl
    obtain ⟨t, ht, hfold⟩ := ih u
    exact ⟨t, (execAll_cons_of_next hu).trans ht, by rw [hfold, hacc, checksum_cons]⟩

/-- Settles O24: CK_INIT loads the seed from which the folds go on. -/
theorem portComputesChecksum : Obligations.PortComputesChecksum := by
  intro s bytes k
  obtain ⟨u, hu, hinit, -⟩ := completes_loadCk (i := .ckInit) (s := s) rfl
  obtain ⟨t, ht, hfold⟩ := execAll_ckFold bytes u
  have hacc : t.ckAcc = checksum 0xFF#8 bytes := by rw [hfold, hinit]
  refine ⟨t, (execAll_cons_of_next hu).trans ht, hacc, ?_⟩
  simpa only [hacc, eq_comm] using completes_ckCheck t k

end Sys2Proof.Machine
end

section
/-! PROOFS of the statements about 44_command_reader.md: which frames end their exchange at once (R214, R215, R220,
R221), how the payload and the checksum byte of a command are read (R210 to R213), what the command does after a good
read (R217 to R219, R222), and how every failure restarts the session (R255, R315). What SES's primitives do comes
first, then the wait points of a command. -/

namespace Sys2Proof.Machine

/-! ### What SES's primitives leave unchanged -/

section Primitives

variable {s t u : State} {W : List Field}

/-- A state that differs from `s` only in the registers of SES. A state made by updates of those registers meets the
condition by computation. -/
theorem Frame.of_registers
    (h : t = { s with
      sessState := t.sessState, sessPhase := t.sessPhase, rdCk := t.rdCk, cmdLen := t.cmdLen, sesResult := t.sesResult
      link := t.link, sesExpired := t.sesExpired, writeFwds := t.writeFwds } := by rfl) :
    Frame [.sessState, .sessPhase, .rdCk, .cmdLen, .sesResult, .link, .sesExpired, .writeFwds] s t := by
  intro f hf
  rw [h]
  cases f with
  | sessState | sessPhase | rdCk | cmdLen | sesResult | link | sesExpired | writeFwds => simp at hf
  | rd i | wr i | drop i => cases i <;> rfl
  | bytes sp => exact fun a => readByte_congr (by cases sp with | cbMem i => cases i <;> rfl | _ => rfl) rfl
  | _ => rfl

theorem frame_sesWait (s : State) (ph : SesPhase) : Frame [.sessPhase, .sesExpired] s (s.sesWait ph) :=
  (Frame.of_registers).of_same (by simp [Field.same])

theorem frame_beginRead (s : State) (f : Byte) :
    Frame [.cmdLen, .rdCk, .sessPhase, .sesExpired] s (s.beginRead f) :=
  (Frame.of_registers).of_same (by simp [Field.same, State.beginRead])

theorem frame_cmdBufWrite (s : State) (k : Nat) (v : Byte) : Frame [.bytes .cmdBuf] s (s.cmdBufWrite k v) := by
  intro f hf
  cases f with
  | rd i | wr i | drop i => simp [Field.same]
  | bytes sp =>
    have hsp : sp ≠ .cmdBuf := by simpa using hf
    simp [Field.same, readByte_cmdBufWrite, hsp]
  | _ => rfl

theorem Frame.readBytes_eq (h : Frame W s t) {sp : Space} (hsp : Field.bytes sp ∉ W) (a n : Nat) :
    t.readBytes sp a n = s.readBytes sp a n :=
  List.map_congr_left fun j _ => h (.bytes sp) hsp (a + j)

/-- What follows a pop of RX and leaves its read count alone has one byte less of RX in its frame (R125, R242). -/
theorem Frame.after_pop {r : Byte} (h : Frame W u t) (hu : s.cbPop .rx = some (r, u)) (hrd : Field.rd .rx ∉ W) :
    t.cbRx.rd = s.cbRx.rd + 1#8 ∧ Frame (W ++ [.rd .rx]) s t := by
  have hpopped : u.cbRx.rd = s.cbRx.rd + 1#8 := congrArg Cbc.rd (cbc_of_cbPop hu .rx)
  have hkept : t.cbRx.rd = u.cbRx.rd := h (.rd .rx) hrd
  exact ⟨hkept.trans hpopped, ((frame_of_cbPop hu).trans h).mono List.perm_append_comm.subset⟩

/-! ### The end of an exchange (R255) -/

/-- From `s` to `t` the exchange failed with result `k`, and the Stop push began. -/
def StopBegun (k : ErrKind) (s t : State) : Prop :=
  t.sesResult = errCode k ∧ t.sessPhase = .pushStop ∧ t.sesExpired = false ∧
  Frame [.sesResult, .sessPhase, .sesExpired] s t

theorem StopBegun.frame {k : ErrKind} (h : StopBegun k s t) : Frame [.sesResult, .sessPhase, .sesExpired] s t := by
  obtain ⟨-, -, -, hframe⟩ := h
  exact hframe

theorem stopBegun_finishFrame {k : ErrKind} (hk : k ≠ .success) (s : State) : StopBegun k s (s.finishFrame k) := by
  obtain ⟨rfl, -⟩ | ⟨-, h⟩ := finishFrame_cases s k
  · exact absurd rfl hk
  · rw [h]
    exact ⟨rfl, rfl, rfl, (Frame.of_registers).of_same (by simp [Field.same])⟩

/-- From `s` to `t` the exchange succeeded, and SES waits for the next frame. -/
def NextFrameAwaited (s t : State) : Prop :=
  t.sesResult = 0#3 ∧ t.sessState = 5#3 ∧ t.sessPhase = .getFrame ∧ t.sesExpired = false ∧
  Frame [.sesResult, .sessState, .sessPhase, .sesExpired] s t

theorem NextFrameAwaited.frame (h : NextFrameAwaited s t) :
    Frame [.sesResult, .sessState, .sessPhase, .sesExpired] s t := by
  obtain ⟨-, -, -, -, hframe⟩ := h
  exact hframe

theorem nextFrameAwaited_finishFrame (s : State) : NextFrameAwaited s (s.finishFrame .success) :=
  ⟨rfl, rfl, rfl, rfl,
    (Frame.of_registers).of_same (by simp [Field.same, State.finishFrame, State.enterWaitingForCommand])⟩

/-! ### The restart (R241, R251) -/

theorem frame_linkReset (s : State) : Frame [.link, .rd .rx, .wr .rx, .rd .tx, .wr .tx] s s.linkReset := by
  intro f hf
  cases f with
  | link => simp at hf
  | rd i | wr i =>
    cases i with
    | eq => rfl
    | rx | tx => simp at hf
  | drop i => cases i <;> rfl
  | bytes sp => exact fun a => readByte_congr (by cases sp with | cbMem i => cases i <;> rfl | _ => rfl) rfl
  | _ => rfl

theorem link_linkReset (s : State) :
    s.linkReset.link.getLsbD 0 = false ∧ s.linkReset.link.getLsbD 1 = s.link.getLsbD 1 := by
  simp only [State.linkReset_link, State.baudSel]
  generalize s.link = l
  revert l; decide

/-- From `s` to `t` the session restarted from Reset: the link is reset, and the sleep began. -/
def RestartedFromReset (s t : State) : Prop :=
  t.sessState = 1#3 ∧ t.sessPhase = .sleepRestart ∧ t.sesExpired = false ∧
  t.link.getLsbD 0 = false ∧ t.link.getLsbD 1 = s.link.getLsbD 1 ∧
  t.cbRx.rd = 0#8 ∧ t.cbRx.wr = 0#8 ∧ t.cbTx.rd = 0#8 ∧ t.cbTx.wr = 0#8 ∧ t.cbEq = s.cbEq ∧
  Frame [.sessState, .sessPhase, .sesExpired, .link, .rd .rx, .wr .rx, .rd .tx, .wr .tx] s t

theorem restartedFromReset_enterReset (s : State) : RestartedFromReset s s.enterReset := by
  obtain ⟨hrx, hbaud⟩ := link_linkReset { s with sessState := stReset }
  have hstate : Frame [.sessState] s { s with sessState := stReset } :=
    (Frame.of_registers).of_same (by simp [Field.same])
  exact ⟨rfl, rfl, rfl, hrx, hbaud, rfl, rfl, rfl, rfl, rfl,
    ((hstate.trans (frame_linkReset _)).trans (frame_sesWait _ .sleepRestart)).mono (by simp)⟩

end Primitives

/-- Settles O38: each of these frames ends its exchange at once. -/
theorem singleByteFramesResult : Obligations.SingleByteFramesResult := by
  intro s lll xxx
  refine ⟨fun i hi => ?_, fun i hi => ?_, _, rfl, stopBegun_finishFrame (by decide) s⟩
  · obtain rfl | rfl : i = .sysNack ∨ i = .dataFrame lll xxx := by simpa using hi
    all_goals exact ⟨_, rfl, nextFrameAwaited_finishFrame s⟩
  · obtain rfl | rfl : i = .sysOther lll xxx ∨ i = .infoFrame lll xxx := by simpa using hi
    all_goals exact ⟨_, rfl, stopBegun_finishFrame (by decide) s⟩

/-! ### The frames that are read (R216) -/

section Command

variable {s t u : State} {f r e : Byte}

/-- What the instruction `i` of the frame byte `f` does after a good read (R217 to R219). -/
def readCase : Instr → Byte → State → State
  | .cmdSelect _, f => selectCase f
  | .cmdWrite _, f => writeCase f
  | _, _ => fun s => s.finishFrame .notExpectedCommand

/-- The rows that are read are run by the procedure of R216, each with its own case. -/
theorem exec_readFrame {i : Instr} {lll xxx : BitVec 3}
    (hi : i = .cmdSelect lll ∨ i = .cmdWrite lll ∨ i = .cmdOther lll xxx) (he : encode i = .frameByte f) (s : State) :
    exec i s = .next (commandStep f (readCase i f) s) := by
  obtain rfl | rfl | rfl := hi <;> (cases he; rfl)

/-- The frame byte of a row that is read has class CMD and the selector of the row (R90, R216). -/
theorem fields_of_readFrame {i : Instr} {lll xxx : BitVec 3}
    (hi : i = .cmdSelect lll ∨ i = .cmdWrite lll ∨ i = .cmdOther lll xxx) (he : encode i = .frameByte f) :
    classOf f = 1#2 ∧ selOf f = lll := by
  obtain rfl | rfl | rfl := hi <;> (cases he; simp)

theorem commandStep_of_getFrame (hp : s.sessPhase = .getFrame) (next : State → State) :
    commandStep f next s = s.beginRead f := by
  simp [commandStep, hp]

theorem commandStep_of_payload {k : Nat} (hp : s.sessPhase = .command f (.payload k)) (next : State → State) :
    commandStep f next s = s.readPayload f k := by
  simp [commandStep, hp]

theorem commandStep_of_checksum (hp : s.sessPhase = .command f .checksum) (next : State → State) :
    commandStep f next s = s.readChecksum next := by
  simp [commandStep, hp]

theorem commandStep_of_push (hp : s.sessPhase = .command f (.push e)) (next : State → State) :
    commandStep f next s = s.pushCommandEvent e := by
  simp [commandStep, hp]

theorem commandStep_of_forward (hp : s.sessPhase = .command f .forward) (next : State → State) :
    commandStep f next s = s := by
  simp [commandStep, hp]

/-- Inside a frame that is read SES runs the procedure of R216. -/
theorem transition_ses_of_command {pt : CmdPoint} (hr : s.rstAsserted = false) (hs : s.sessState = 5#3)
    (hp : s.sessPhase = .command f pt) (hf : StartsRead f) :
    transition .ses s = .next (commandStep f (commandCase f) s) := by
  rw [transition_ses hr, sesStep_of_command hs hp, exec_decodeFrame_read hf]

/-- The payload length of a frame that is read is not cut (R92, R215). -/
theorem toNat_payloadLength (h : (selOf f).toNat ≤ 5) : (payloadLength f).toNat = 2 ^ (selOf f).toNat := by
  rw [payloadLength_eq_pow]
  exact Nat.mod_eq_of_lt (Nat.pow_lt_pow_right (by decide) (by omega))

/-- The beginning of a read keeps the length at the 6 bits of `CMD_LEN` (R29, R210). -/
theorem toNat_cmdLen_beginRead (h : (selOf f).toNat ≤ 5) :
    (s.beginRead f).cmdLen.toNat = 2 ^ (selOf f).toNat := by
  show ((payloadLength f).setWidth 6).toNat = _
  rw [BitVec.toNat_setWidth, toNat_payloadLength h]
  exact Nat.mod_eq_of_lt (Nat.pow_lt_pow_right (by decide) (by omega))

end Command

/-- Settles O39: at the frame byte the procedure of every row that is read begins the read. -/
theorem commandFramesBeginRead : Obligations.CommandFramesBeginRead := by
  intro s i f lll xxx hp hlen hi he
  obtain ⟨-, hsel⟩ := fields_of_readFrame hi he
  rw [← hsel] at hlen ⊢
  have hexec : exec i s = .next (s.beginRead f) := by rw [exec_readFrame hi he, commandStep_of_getFrame hp]
  exact ⟨_, hexec, toNat_cmdLen_beginRead hlen, rfl, rfl, rfl, frame_beginRead s f⟩

/-! ### One byte of a command (R211, R212, R242) -/

section Bytes

variable {s t u : State} {f r : Byte} {k : Nat}

/-- `get_byte` with a byte in RX (R242). -/
theorem getByte_of_cbPop (hu : s.cbPop .rx = some (r, u)) : s.getByte = .byte r u := by
  simp [State.getByte, (state_of_cbPop hu).1, hu]

/-- `get_byte` with RX empty (R242, R157). -/
theorem getByte_of_empty (he : s.cbEmpty .rx = true) : s.getByte = if s.sesExpired then .timeout else .held := by
  simp [State.getByte, he]

/-- What SES waits for after `k` of `n` payload bytes (R210). -/
def readPoint (n k : Nat) : CmdPoint := if k < n then .payload k else .checksum

/-- The state after SES has popped payload byte `k`, which is `r`, and is left in `u` (R211). -/
def State.takePayload (u : State) (f : Byte) (k : Nat) (r : Byte) : State :=
  ({ u.cmdBufWrite k r with rdCk := u.rdCk ^^^ r } : State).sesWait (.command f (readPoint u.cmdLen.toNat (k + 1)))

theorem readPayload_of_cbPop (hu : s.cbPop .rx = some (r, u)) : s.readPayload f k = u.takePayload f k r := by
  rw [State.readPayload, getByte_of_cbPop hu, State.takePayload, readPoint]
  by_cases hk : k + 1 < u.cmdLen.toNat <;> simp [hk]

theorem readPayload_of_empty (he : s.cbEmpty .rx = true) :
    s.readPayload f k = if s.sesExpired then s.finishFrame .timeout else s := by
  rw [State.readPayload, getByte_of_empty he]
  cases s.sesExpired <;> rfl

theorem readChecksum_of_cbPop (hu : s.cbPop .rx = some (r, u)) (next : State → State) :
    s.readChecksum next = if r = u.rdCk then next u else u.finishFrame .crcError := by
  simp [State.readChecksum, getByte_of_cbPop hu]

theorem readChecksum_of_empty (he : s.cbEmpty .rx = true) (next : State → State) :
    s.readChecksum next = if s.sesExpired then s.finishFrame .timeout else s := by
  rw [State.readChecksum, getByte_of_empty he]
  cases s.sesExpired <;> rfl

theorem frame_takePayload (u : State) (f : Byte) (k : Nat) (r : Byte) :
    Frame [.bytes .cmdBuf, .rdCk, .sessPhase, .sesExpired] u (u.takePayload f k r) := by
  have hregisters : Frame [.rdCk, .sessPhase, .sesExpired] (u.cmdBufWrite k r) (u.takePayload f k r) :=
    (Frame.of_registers).of_same (by simp [Field.same, State.takePayload])
  exact (frame_cmdBufWrite u k r).trans hregisters

theorem readByte_takePayload (u : State) (f : Byte) (k : Nat) (r : Byte) (x : Nat) :
    (u.takePayload f k r).readByte .cmdBuf x = if x = k then r else u.readByte .cmdBuf x :=
  (readByte_cmdBufWrite u k r .cmdBuf x).trans (by simp)

/-- From `s` to `t` SES read payload byte `k` of `f`, which is `r`. -/
def PayloadByteRead (f : Byte) (k : Nat) (r : Byte) (s t : State) : Prop :=
  s.queue .rx = r :: t.queue .rx ∧ t.cbRx.rd = s.cbRx.rd + 1#8 ∧
  t.readByte .cmdBuf k = r ∧ (∀ x, x ≠ k → t.readByte .cmdBuf x = s.readByte .cmdBuf x) ∧
  t.rdCk = s.rdCk ^^^ r ∧ t.sessPhase = .command f (readPoint s.cmdLen.toNat (k + 1)) ∧ t.sesExpired = false ∧
  Frame [.rd .rx, .bytes .cmdBuf, .rdCk, .sessPhase, .sesExpired] s t

theorem PayloadByteRead.frame (h : PayloadByteRead f k r s t) :
    Frame [.rd .rx, .bytes .cmdBuf, .rdCk, .sessPhase, .sesExpired] s t := by
  obtain ⟨-, -, -, -, -, -, -, hframe⟩ := h
  exact hframe

theorem payloadByteRead_of_cbPop (f : Byte) (k : Nat) (hu : s.cbPop .rx = some (r, u)) :
    PayloadByteRead f k r s (u.takePayload f k r) := by
  have hpop := frame_of_cbPop hu
  have hck : u.rdCk = s.rdCk := hpop .rdCk (by simp)
  have hlen : u.cmdLen = s.cmdLen := hpop .cmdLen (by simp)
  have hqueue : (u.takePayload f k r).queue .rx = u.queue .rx := queue_of_same
  obtain ⟨hrd, -⟩ := (frame_takePayload u f k r).after_pop hu (by simp)
  refine ⟨by rw [hqueue, queue_pop hu], hrd, by rw [readByte_takePayload, if_pos rfl], fun x hx => ?_, ?_, ?_, rfl,
    hpop.trans (frame_takePayload u f k r)⟩
  · rw [readByte_takePayload, if_neg hx, readByte_cbPop hu]
  · rw [← hck]; rfl
  · rw [← hlen]; rfl

/-- At the wait for payload byte `k` with RX not empty SES reads it. -/
theorem transition_payload (hr : s.rstAsserted = false) (hs : s.sessState = 5#3)
    (hp : s.sessPhase = .command f (.payload k)) (hf : StartsRead f) (he : s.cbEmpty .rx = false) :
    ∃ t, transition .ses s = .next t ∧
      PayloadByteRead f k (s.readByte (.cbMem .rx) (slotOf s.cfg.capRx s.cbRx.rd)) s t := by
  obtain ⟨⟨r, u⟩, hu⟩ := Option.isSome_iff_exists.mp (cbPop_isSome s .rx he)
  obtain ⟨-, hbyte, -⟩ := state_of_cbPop hu
  refine ⟨u.takePayload f k r, ?_, hbyte ▸ payloadByteRead_of_cbPop f k hu⟩
  rw [transition_ses_of_command hr hs hp hf, commandStep_of_payload hp, readPayload_of_cbPop hu]

end Bytes

/-! ### The payload loop (R210, R211) -/

section Payload

variable {s t u : State} {f : Byte}

theorem sesSteps_succ_of_next {n : Nat} (h : transition .ses s = .next u) : sesSteps (n + 1) s = sesSteps n u := by
  simp [sesSteps, h]

theorem readBytes_succ (s : State) (sp : Space) (a n : Nat) :
    s.readBytes sp a (n + 1) = s.readByte sp a :: s.readBytes sp (a + 1) n := by
  simp [State.readBytes, List.range_succ_eq_map, Nat.add_right_comm, Nat.add_assoc]

/-- From `s` to `t` SES read the payload bytes `p` of `f`, from byte `j` to the last, with `rest` behind them in RX. -/
def PayloadRead (f : Byte) (j : Nat) (p rest : List Byte) (s t : State) : Prop :=
  t.sessPhase = .command f .checksum ∧ t.queue .rx = rest ∧
  t.readBytes .cmdBuf j p.length = p ∧ t.rdCk = checksum s.rdCk p ∧
  (∀ x, x < j ∨ j + p.length ≤ x → t.readByte .cmdBuf x = s.readByte .cmdBuf x) ∧
  Frame [.rd .rx, .bytes .cmdBuf, .rdCk, .sessPhase, .sesExpired] s t

theorem payloadRead_nil {j : Nat} (hp : s.sessPhase = .command f .checksum) : PayloadRead f j [] (s.queue .rx) s s :=
  ⟨hp, rfl, rfl, rfl, fun _ _ => rfl, (Frame.refl s).mono (by simp)⟩

/-- Reading a byte and then the bytes behind it is reading them all. -/
theorem PayloadByteRead.cons {j : Nat} {v : Byte} {p rest : List Byte} (hv : PayloadByteRead f j v s u)
    (h : PayloadRead f (j + 1) p rest u t) : PayloadRead f j (v :: p) rest s t := by
  obtain ⟨-, -, hbyte, hother, hck, -, -, hframe⟩ := hv
  obtain ⟨hphase, hqueue, hbytes, hfold, houtside, hframe'⟩ := h
  refine ⟨hphase, hqueue, ?_, by rw [hfold, hck, checksum_cons], fun x hx => ?_, (hframe.trans hframe').mono (by simp)⟩
  · rw [List.length_cons, readBytes_succ, hbytes, houtside j (by omega), hbyte]
  · rw [List.length_cons] at hx
    rw [houtside x (by omega), hother x (by omega)]

/-- From the wait for payload byte `j` as many SES transitions as there are bytes left read them. -/
theorem sesSteps_payload {j : Nat} {p rest : List Byte} (hr : s.rstAsserted = false) (hs : s.sessState = 5#3)
    (hf : StartsRead f) (hp : s.sessPhase = .command f (readPoint s.cmdLen.toNat j))
    (hlen : j + p.length = s.cmdLen.toNat) (hq : s.queue .rx = p ++ rest) :
    ∃ t, sesSteps p.length s = .next t ∧ PayloadRead f j p rest s t := by
  induction p generalizing s j with
  | nil =>
    rw [readPoint, if_neg (by simp at hlen; omega)] at hp
    obtain rfl : s.queue .rx = rest := hq
    exact ⟨s, rfl, payloadRead_nil hp⟩
  | cons v p ih =>
    rw [List.length_cons] at hlen
    rw [readPoint, if_pos (by omega)] at hp
    have hne : s.cbEmpty .rx = false := by
      rw [← Bool.not_eq_true, cbEmpty_iff_queue_eq_nil, hq]
      exact List.cons_ne_nil _ _
    obtain ⟨u, hu, hread⟩ := transition_payload hr hs hp hf hne
    have hframe := hread.frame
    obtain ⟨hqueue, -, -, -, -, hphase, -, -⟩ := id hread
    obtain ⟨hbyte, hrest⟩ := List.cons.inj (hqueue.symm.trans hq)
    have hcmd : u.cmdLen = s.cmdLen := hframe .cmdLen (by simp)
    have hreset : u.rstAsserted = s.rstAsserted := hframe .rstAsserted (by simp)
    have hstate : u.sessState = s.sessState := hframe .sessState (by simp)
    obtain ⟨t, ht, hall⟩ := ih (s := u) (j := j + 1) (hreset.trans hr) (hstate.trans hs) (by rw [hphase, hcmd])
      (by rw [hcmd]; omega) hrest
    exact ⟨t, (sesSteps_succ_of_next hu).trans ht, PayloadByteRead.cons (hbyte ▸ hread) hall⟩

end Payload

/-- Settles O40: the one transition is the rule of the payload byte, and the loop is that rule by induction on the bytes
that are left. -/
theorem readerReadsPayload : Obligations.ReaderReadsPayload := by
  refine ⟨fun s f k hv hr hs hp hc hsel he => ?_, fun s f k p rest hv hr hs hp hc hsel hlen hcmd hck hq => ?_⟩
  · obtain ⟨t, ht, hqueue, hrd, hbyte, hother, hfold, hphase, hexpired, hframe⟩ :=
      transition_payload hr hs hp ⟨hc, hsel⟩ he
    refine ⟨t, ht, hqueue, hrd, hbyte, hother, hfold, ?_, hexpired, hframe⟩
    rw [hphase, readPoint]
  · have hpos : 0 < s.cmdLen.toNat := by
      rw [hcmd, hlen, toNat_payloadLength hsel]
      exact Nat.two_pow_pos _
    have hstart : s.sessPhase = .command f (readPoint s.cmdLen.toNat 0) := by rw [hp, readPoint, if_pos hpos]
    obtain ⟨t, ht, hphase, hqueue, hbytes, hfold, houtside, hframe⟩ :=
      sesSteps_payload hr hs ⟨hc, hsel⟩ hstart (by omega) hq
    exact ⟨t, ht, hphase, hqueue, hbytes, by rw [hfold, hck, checksum_cons], fun x hx => houtside x (by omega), hframe⟩

/-! ### The checksum byte (R212, R217 to R219) -/

section ChecksumByte

variable {s t u : State} {i : Instr} {f r : Byte} {lll xxx : BitVec 3} {k : ErrKind}

/-- At the wait for the checksum byte with RX not empty the byte decides (R212). -/
theorem exec_readFrame_checksum (hi : i = .cmdSelect lll ∨ i = .cmdWrite lll ∨ i = .cmdOther lll xxx)
    (he : encode i = .frameByte f) (hp : s.sessPhase = .command f .checksum) (hu : s.cbPop .rx = some (r, u)) :
    exec i s = .next (if r = u.rdCk then readCase i f u else u.finishFrame .crcError) := by
  rw [exec_readFrame hi he, commandStep_of_checksum hp, readChecksum_of_cbPop hu]

/-- A failure after the pop of a byte: the Stop push begins, and RX has lost the byte. -/
theorem StopBegun.after_pop (h : StopBegun k u t) (hu : s.cbPop .rx = some (r, u)) :
    t.sesResult = errCode k ∧ t.sessPhase = .pushStop ∧ t.cbRx.rd = s.cbRx.rd + 1#8 ∧ t.sesExpired = false ∧
    Frame [.sesResult, .sessPhase, .sesExpired, .rd .rx] s t := by
  obtain ⟨hresult, hphase, hexpired, hframe⟩ := h
  obtain ⟨hrd, hall⟩ := hframe.after_pop hu (by simp)
  exact ⟨hresult, hphase, hrd, hexpired, hall⟩

/-- A wait that begins after the pop of a byte: nothing else changes. -/
theorem sesWait_after_pop (hu : s.cbPop .rx = some (r, u)) (ph : SesPhase) :
    (u.sesWait ph).cbRx.rd = s.cbRx.rd + 1#8 ∧ (u.sesWait ph).sesExpired = false ∧
    Frame [.sessPhase, .sesExpired, .rd .rx] s (u.sesWait ph) := by
  obtain ⟨hrd, hall⟩ := (frame_sesWait u ph).after_pop hu (by simp)
  exact ⟨hrd, rfl, hall⟩

theorem writeCase_of_sentinel (h : s.readByte .cmdBuf 0 = s.cfg.resetSentinel) :
    writeCase f s = s.sesWait (.command f (.push 0x60#8)) := by
  rw [writeCase, if_pos h]
  rfl

/-- The write forward: what it presents, what it records, and its frame (R218, R222). -/
theorem writeCase_of_payload (h : s.readByte .cmdBuf 0 ≠ s.cfg.resetSentinel) :
    (writeCase f s).writeForward = some (s.readBytes .cmdBuf 0 s.cmdLen.toNat) ∧
    (writeCase f s).writeFwds = s.writeFwds ++ [s.readBytes .cmdBuf 0 s.cmdLen.toNat] ∧
    (writeCase f s).sessPhase = .command f .forward ∧ (writeCase f s).sesExpired = false ∧
    Frame [.sessPhase, .sesExpired, .writeFwds] s (writeCase f s) := by
  rw [writeCase, if_neg h]
  have hframe : Frame [.sessPhase, .sesExpired, .writeFwds] s
      (({ s with writeFwds := s.writeFwds ++ [s.readBytes .cmdBuf 0 s.cmdLen.toNat] } : State).sesWait
        (.command f .forward)) := (Frame.of_registers).of_same (by simp [Field.same])
  refine ⟨?_, rfl, rfl, rfl, hframe⟩
  exact congrArg some (hframe.readBytes_eq (by simp) 0 _)

end ChecksumByte

/-- Settles O41: the byte that is popped decides, and on a match the case of the row runs on what the pop left. -/
theorem checksumByteDecides : Obligations.ChecksumByteDecides := by
  intro s lll xxx i f hi he hp hne
  obtain ⟨⟨r, u⟩, hu⟩ := Option.isSome_iff_exists.mp (cbPop_isSome s .rx hne)
  obtain ⟨-, hbyte, -⟩ := state_of_cbPop hu
  have hpop := frame_of_cbPop hu
  have hck : u.rdCk = s.rdCk := hpop .rdCk (by simp)
  have hfirst : u.readByte .cmdBuf 0 = s.readByte .cmdBuf 0 := readByte_cbPop hu .cmdBuf 0
  have hcfg : u.cfg = s.cfg := cfg_of_cbPop hu
  have hexec := exec_readFrame_checksum hi he hp hu
  refine ⟨fun hbad => ?mismatch, fun hgood => ?good⟩
  case mismatch =>
    rw [if_neg (by rw [hck, hbyte]; exact hbad)] at hexec
    exact ⟨_, hexec, (stopBegun_finishFrame (by decide) u).after_pop hu⟩
  rw [if_pos (by rw [hck, hbyte]; exact hgood)] at hexec
  refine ⟨?select, ?reset, ?forward, ?other⟩
  case select =>
    rintro rfl
    refine ⟨_, hexec, ?_, sesWait_after_pop hu _⟩
    rw [← hfirst]
    rfl
  case reset =>
    rintro rfl hsentinel
    rw [readCase, writeCase_of_sentinel (by rw [hfirst, hcfg, hsentinel])] at hexec
    exact ⟨_, hexec, rfl, sesWait_after_pop hu _⟩
  case forward =>
    rintro rfl hpayload
    have hcmd : u.cmdLen = s.cmdLen := hpop .cmdLen (by simp)
    have hsent : u.writeFwds = s.writeFwds := hpop .writeFwds (by simp)
    have hbytes := hpop.readBytes_eq (sp := .cmdBuf) (by simp) 0 s.cmdLen.toNat
    obtain ⟨hpresented, hrecorded, hphase, hexpired, hframe⟩ :=
      writeCase_of_payload (f := f) (s := u) (by rw [hfirst, hcfg]; exact hpayload)
    rw [hcmd, hbytes] at hpresented hrecorded
    obtain ⟨hrd, hall⟩ := hframe.after_pop hu (by simp)
    exact ⟨_, hexec, hpresented, hsent ▸ hrecorded, hphase, hrd, hexpired, hall.mono (by simp)⟩
  case other =>
    rintro rfl
    exact ⟨_, hexec, (stopBegun_finishFrame (by decide) u).after_pop hu⟩

/-! ### The end of a good command (R217, R218, R222, R246) -/

section Effect

variable {s u : State} {e : Byte}

theorem sessionPush_of_cbPush (hu : s.cbPush .eq e = some u) : s.sessionPush e = .done u := by
  simp [State.sessionPush, (state_of_cbPush hu).1, hu]

theorem sessionPush_of_full (hf : s.cbFull .eq = true) :
    s.sessionPush e = if s.sesExpired then .timeout else .held := by
  simp [State.sessionPush, hf]

theorem pushCommandEvent_of_cbPush (hu : s.cbPush .eq e = some u) : s.pushCommandEvent e = u.finishFrame .success := by
  simp [State.pushCommandEvent, sessionPush_of_cbPush hu]

theorem pushCommandEvent_of_full (hf : s.cbFull .eq = true) :
    s.pushCommandEvent e = if s.sesExpired then s.finishFrame .timeout else s := by
  rw [State.pushCommandEvent, sessionPush_of_full hf]
  cases s.sesExpired <;> rfl

/-- While DEV's port holds an operation it acknowledges no write forward (R10). -/
theorem ackForward_of_held (hd : s.pendOf .dev ≠ none) : ackForward s = s := by
  unfold ackForward
  split
  · rw [if_pos hd]
  · rfl

theorem ackForward_of_idle {f : Byte} (hp : s.sessPhase = .command f .forward) (hd : s.pendOf .dev = none)
    (hs : s.sessState = 5#3) : ackForward s = s.finishFrame .success := by
  simp [ackForward, hp, hd, hs]

theorem transition_ackForward (hr : s.rstAsserted = false) : transition .ackForward s = .next (ackForward s) := by
  simp [transition, hr]

/-- An event that SES queues is at the new end of EQ, and the command's result is Success. -/
theorem commandEvent_queued (hv : s.cfg.valid = true) (hu : s.cbPush .eq e = some u) :
    (u.finishFrame .success).queue .eq = s.queue .eq ++ [e] ∧
    Frame [.wr .eq, .bytes (.cbMem .eq), .sesResult, .sessState, .sessPhase, .sesExpired] s
      (u.finishFrame .success) := by
  exact ⟨by rw [queue_finishFrame, queue_push hv hu],
    (frame_of_cbPush hu).trans (nextFrameAwaited_finishFrame u).frame⟩

end Effect

/-- Settles O42: the push has room, waits or has expired; the forward ends by DEV's acknowledgement alone. -/
theorem commandEffectCompletes : Obligations.CommandEffectCompletes := by
  intro s lll i f e hv hlen hi he
  have hi' : i = .cmdSelect lll ∨ i = .cmdWrite lll ∨ i = .cmdOther lll lll := hi.imp_right .inl
  obtain ⟨hclass, hsel⟩ := fields_of_readFrame hi' he
  have hread : StartsRead f := ⟨hclass, by rw [hsel]; exact hlen⟩
  refine ⟨fun hp => ?push, fun hp hr hs => ?forward⟩
  case push =>
    have hexec : exec i s = .next (s.pushCommandEvent e) := by rw [exec_readFrame hi' he, commandStep_of_push hp]
    refine ⟨fun hf => ?_, fun hf hx => ?_, fun hf hx => ?_⟩
    · obtain ⟨u, hu⟩ := Option.isSome_iff_exists.mp (cbPush_isSome s .eq e hf)
      obtain ⟨hqueue, hframe⟩ := commandEvent_queued hv hu
      rw [pushCommandEvent_of_cbPush hu] at hexec
      exact ⟨_, hexec, hqueue, rfl, rfl, rfl, rfl, hframe⟩
    · rw [hexec, pushCommandEvent_of_full hf, hx]
      rfl
    · rw [pushCommandEvent_of_full hf, if_pos hx] at hexec
      exact ⟨_, hexec, stopBegun_finishFrame (by decide) s⟩
  case forward =>
    rw [transition_ses_of_command hr hs hp hread, commandStep_of_forward hp, transition_ackForward hr]
    refine ⟨rfl, fun hd => by rw [ackForward_of_held hd], fun hd => ?_⟩
    rw [ackForward_of_idle hp hd hs]
    obtain ⟨hresult, hstate, hphase, hexpired, hframe⟩ := nextFrameAwaited_finishFrame s
    exact ⟨_, rfl, hresult, hstate, hphase, hexpired, hframe.of_same (by simp [Field.same, hstate, hs])⟩

/-! ### Failures (R213, R255, R315) -/

section Failure

variable {s t u : State} {f : Byte} {pt : CmdPoint}

/-- The wait points of WaitingForCommand at which SES waits for a byte of RX: the frame byte, and a payload byte or the
checksum byte of a frame that is read (R210, R255). -/
def AwaitsByte (s : State) : Prop :=
  s.sessPhase = .getFrame ∨
  ∃ f pt, s.sessPhase = .command f pt ∧ classOf f = 1#2 ∧ (selOf f).toNat ≤ 5 ∧
    ((∃ k, pt = .payload k) ∨ pt = .checksum)

/-- At a wait for a byte with RX empty SES goes on waiting until the wait has expired, which is a Timeout. -/
theorem transition_ses_of_silence (hr : s.rstAsserted = false) (hs : s.sessState = 5#3) (hw : AwaitsByte s)
    (he : s.cbEmpty .rx = true) :
    transition .ses s = .next (if s.sesExpired then s.finishFrame .timeout else s) := by
  obtain hp | ⟨f, pt, hp, hc, hsel, ⟨k, rfl⟩ | rfl⟩ := hw
  · rw [transition_ses hr]
    simp only [sesStep, hp, hs, frameStep, getByte_of_empty he]
    cases s.sesExpired <;> rfl
  · rw [transition_ses_of_command hr hs hp ⟨hc, hsel⟩, commandStep_of_payload hp, readPayload_of_empty he]
  · rw [transition_ses_of_command hr hs hp ⟨hc, hsel⟩, commandStep_of_checksum hp, readChecksum_of_empty he]

/-- In a legal state SES reads the payload and the checksum only of a frame that is read, in WaitingForCommand. -/
theorem BlockInv.startsRead (hi : BlockInv s) (hp : s.sessPhase = .command f pt)
    (hpt : (∃ k, pt = .payload k) ∨ pt = .checksum) : s.sessState = 5#3 ∧ StartsRead f := by
  obtain ⟨-, hagree, -⟩ := hi
  obtain ⟨k, rfl⟩ | rfl := hpt <;> simp only [SesAgrees, hp] at hagree
  · obtain ⟨hs, -, ⟨hc, hsel, -⟩, -⟩ := hagree
    exact ⟨hs, hc, hsel⟩
  · obtain ⟨hs, -, hc, hsel, -⟩ := hagree
    exact ⟨hs, hc, hsel⟩

/-- SES is at the Stop push, or still reads a command: no command has succeeded. -/
def NotSucceeded (t : State) : Prop :=
  t.sessPhase = .pushStop ∨ (∃ f q, t.sessPhase = .command f (.payload q)) ∨ ∃ f, t.sessPhase = .command f .checksum

/-- After a good read only the command of another id has not succeeded, and it has no effect (R213, R219). -/
theorem frame_commandCase_of_notSucceeded (h : NotSucceeded (commandCase f u)) :
    Frame [.sesResult, .sessPhase, .sesExpired] u (commandCase f u) := by
  unfold commandCase at h ⊢
  split_ifs at h ⊢
  · simp [NotSucceeded, selectCase] at h
  · unfold writeCase at h
    split_ifs at h <;> simp [NotSucceeded] at h
  · exact (stopBegun_finishFrame (k := .notExpectedCommand) (by decide) u).frame

/-- What the checksum byte leaves unchanged where the command has not succeeded (R212, R213). -/
theorem frame_readChecksum_of_notSucceeded {r : Byte} (hu : s.cbPop .rx = some (r, u))
    (h : NotSucceeded (s.readChecksum (commandCase f))) :
    Frame [.sesResult, .sessPhase, .sesExpired, .rd .rx] s (s.readChecksum (commandCase f)) := by
  rw [readChecksum_of_cbPop hu] at h ⊢
  split_ifs at h ⊢
  · exact ((frame_commandCase_of_notSucceeded h).after_pop hu (by simp)).2
  · exact ((stopBegun_finishFrame (k := .crcError) (by decide) u).frame.after_pop hu (by simp)).2

end Failure

/-- Settles O43: on silence the exchange fails or goes on waiting; a payload byte goes to `CMD_BUF`; and the checksum
byte starts an effect only where the command succeeds. -/
theorem failedReadHasNoEffect : Obligations.FailedReadHasNoEffect := by
  intro s t f pt hi hr hp hpt ht hfail
  obtain ⟨hs, hread⟩ := hi.startsRead hp hpt
  cases he : s.cbEmpty .rx with
  | true =>
    rw [transition_ses_of_silence hr hs (.inr ⟨f, pt, hp, hread.1, hread.2, hpt⟩) he] at ht
    cases ht
    split
    · exact (stopBegun_finishFrame (k := .timeout) (by decide) s).frame.mono (by simp)
    · exact (Frame.refl s).mono (by simp)
  | false =>
    obtain ⟨k, rfl⟩ | rfl := hpt
    · obtain ⟨t', ht', hbyte⟩ := transition_payload hr hs hp hread he
      cases ht.symm.trans ht'
      exact hbyte.frame.mono (by simp)
    · obtain ⟨⟨r, u⟩, hu⟩ := Option.isSome_iff_exists.mp (cbPop_isSome s .rx he)
      rw [transition_ses_of_command hr hs hp hread, commandStep_of_checksum hp] at ht
      cases ht
      have hnot : NotSucceeded (s.readChecksum (commandCase f)) :=
        hfail.imp_right fun h => h.imp (fun hq => ⟨f, hq⟩) fun hc => ⟨f, hc⟩
      exact (frame_readChecksum_of_notSucceeded hu hnot).mono (by simp)

/-! ### The Stop push (R255) -/

section StopPush

variable {s u : State}

theorem transition_ses_of_pushStop (hr : s.rstAsserted = false) (hs : s.sessState = 5#3)
    (hp : s.sessPhase = .pushStop) : transition .ses s = .next (stopPushStep s) := by
  rw [transition_ses hr]
  simp [sesStep, hp, hs]

theorem stopPushStep_of_cbPush (hu : s.cbPush .eq 0xA0#8 = some u) : stopPushStep s = u.enterReset := by
  have hpush : s.sessionPush (eventByte 5#3 0#8) = .done u := sessionPush_of_cbPush hu
  simp [stopPushStep, hpush]

theorem stopPushStep_of_full (hf : s.cbFull .eq = true) :
    stopPushStep s = if s.sesExpired then s.enterReset else s := by
  rw [stopPushStep, sessionPush_of_full hf]
  cases s.sesExpired <;> rfl

theorem queue_eq_enterReset (s : State) : s.enterReset.queue .eq = s.queue .eq := queue_congr rfl rfl rfl

end StopPush

/-- Settles O44: silence fails at each wait for a byte, and the Stop push that follows is done, waits or has expired. -/
theorem failureRestartsFromReset : Obligations.FailureRestartsFromReset := by
  intro s hv hr hs
  refine ⟨fun hw he => ?silence, fun hp hf hx => ?waiting, fun hp hdone => ?restart⟩
  case silence =>
    rw [transition_ses_of_silence hr hs hw he]
    exact ⟨fun hx => by rw [hx]; rfl,
      fun hx => ⟨_, by rw [if_pos hx], stopBegun_finishFrame (k := .timeout) (by decide) s⟩⟩
  case waiting => rw [transition_ses_of_pushStop hr hs hp, stopPushStep_of_full hf, hx]; rfl
  case restart =>
    rw [transition_ses_of_pushStop hr hs hp]
    cases hf : s.cbFull .eq with
    | false =>
      obtain ⟨u, hu⟩ := Option.isSome_iff_exists.mp (cbPush_isSome s .eq 0xA0#8 hf)
      have hpush := frame_of_cbPush hu
      have hlink : u.link = s.link := hpush .link (by simp)
      have hresult : u.sesResult = s.sesResult := hpush .sesResult (by simp)
      obtain ⟨hstate, hphase, hexpired, hrx, hbaud, hrxRd, hrxWr, htxRd, htxWr, -, hframe⟩ :=
        restartedFromReset_enterReset u
      rw [stopPushStep_of_cbPush hu]
      exact ⟨_, rfl, by rw [queue_eq_enterReset, queue_push hv hu, if_pos rfl], hresult, hstate, hphase, hexpired,
        hrx, hlink ▸ hbaud, hrxRd, hrxWr, htxRd, htxWr, by simp, hpush.trans hframe⟩
    | true =>
      have hx : s.sesExpired = true := hdone.resolve_left (by simp [hf])
      obtain ⟨hstate, hphase, hexpired, hrx, hbaud, hrxRd, hrxWr, htxRd, htxWr, heq, hframe⟩ :=
        restartedFromReset_enterReset s
      rw [stopPushStep_of_full hf, if_pos hx]
      exact ⟨_, rfl, queue_eq_enterReset s, rfl, hstate, hphase, hexpired, hrx, hbaud, hrxRd, hrxWr, htxRd, htxWr,
        fun _ => heq, hframe.mono (by simp)⟩

end Sys2Proof.Machine
end

section
/-! PROOFS of the statements about 45_session.md. First that the block stays legal (R240 to R256, R313): where SES
stands and what the registers hold, each with one rule for each kind of transition. -/

namespace Sys2Proof.Machine

/-! ### Where SES stands (R240) -/

/-- Receive is off and the link buffers are empty, as a link reset leaves them until Init (R241). -/
def LinkDown (s : State) : Prop := s.rxEn = false ∧ s.cbSize .rx = 0#8 ∧ s.cbSize .tx = 0#8

/-- SES is in WaitingForCommand, with receive on at the negotiated rate (R254, R255). -/
def AwaitsCommands (s : State) : Prop := s.sessState = stWaitingForCommand ∧ s.link = 3#2

/-- How much of the command `f` has been read at a point of its procedure (R210): the bytes before the one that SES
waits for, and after the payload all of it. -/
def ReadAt (s : State) (f : Byte) : CmdPoint → Prop
  | .payload k => ReadSoFar s f k ∧ k < s.cmdLen.toNat
  | .checksum | .push _ | .forward => ReadSoFar s f s.cmdLen.toNat

section Agrees

variable {s t u : State} {f : Byte}

theorem sesAgrees_iff_of_sleepRestart (hp : s.sessPhase = .sleepRestart) :
    SesAgrees s ↔ (s.sessState = stStart ∨ s.sessState = stReset) ∧ LinkDown s := by
  simp only [SesAgrees, hp, LinkDown]

theorem sesAgrees_iff_of_command {pt : CmdPoint} (hp : s.sessPhase = .command f pt) :
    SesAgrees s ↔ AwaitsCommands s ∧ ReadAt s f pt := by
  cases pt <;> simp only [SesAgrees, hp, AwaitsCommands, ReadAt, and_assoc]

/-- At each wait point of WaitingForCommand SES has that state's link. -/
theorem SesAgrees.awaitsCommands (h : SesAgrees s)
    (hp : s.sessPhase = .getFrame ∨ (∃ f pt, s.sessPhase = .command f pt) ∨ s.sessPhase = .pushStop) :
    AwaitsCommands s := by
  obtain hp | ⟨f, pt, hp⟩ | hp := hp
  · simp only [SesAgrees, hp] at h
    exact h
  · exact ((sesAgrees_iff_of_command hp).mp h).1
  · simp only [SesAgrees, hp] at h
    exact h

/-- SES stands in one of its six states, so BAD_STATE is not raised (R256, R313). -/
theorem SesAgrees.sessState_lt (h : SesAgrees s) : s.sessState.toNat < 6 := by
  have hsix : ∀ x ∈ [stStart, stReset, stInit, stWaitingForAck, stSetSpeed, stWaitingForCommand], x.toNat < 6 := by
    decide
  refine hsix _ ?_
  cases hp : s.sessPhase with
  | command f pt => simp [(h.awaitsCommands (.inr (.inl ⟨f, pt, hp⟩))).1]
  | sleepRestart =>
    obtain ⟨hs | hs, -⟩ := (sesAgrees_iff_of_sleepRestart hp).mp h <;> simp [hs]
  | stuck => simp only [SesAgrees, hp] at h
  | _ =>
    simp only [SesAgrees, hp] at h
    simp [h.1]

/-- SES is at the entry of no state but Start: it runs every other state's actions as it enters it (R240, R342). -/
theorem SesAgrees.enterCurrent_eq (h : SesAgrees s) (hp : s.sessPhase = .entry) : s.enterCurrent = s.enterStart := by
  simp only [SesAgrees, hp] at h
  rw [State.enterCurrent, h.1]
  rfl

/-- What has been read depends on the command reader's registers and on the draw. A state made by updates of other
fields meets each condition by computation. -/
theorem ReadSoFar.of_same {k : Nat} (h : ReadSoFar s f k) (hlen : t.cmdLen = s.cmdLen := by rfl)
    (hck : t.rdCk = s.rdCk := by rfl) (hbuf : t.cmdBuf = s.cmdBuf := by rfl) (he : t.epoch = s.epoch := by rfl) :
    ReadSoFar t f k := by
  simpa only [ReadSoFar, State.readBytes, State.readByte, State.mem, hlen, hck, hbuf, he] using h

theorem ReadAt.of_same {pt : CmdPoint} (h : ReadAt s f pt) (hlen : t.cmdLen = s.cmdLen := by rfl)
    (hck : t.rdCk = s.rdCk := by rfl) (hbuf : t.cmdBuf = s.cmdBuf := by rfl) (he : t.epoch = s.epoch := by rfl) :
    ReadAt t f pt := by
  cases pt with
  | payload k => exact ⟨h.1.of_same hlen hck hbuf he, by rw [hlen]; exact h.2⟩
  | checksum | push e | forward =>
    rw [ReadAt, hlen]
    exact ReadSoFar.of_same h hlen hck hbuf he

/-- A transition of another agent leaves SES where it stands, if it leaves a link that is down so. -/
theorem SesAgrees.of_same (h : SesAgrees s)
    (hdown : LinkDown s → s.sessState ≠ stWaitingForCommand → LinkDown t)
    (hcfg : t.cfg = s.cfg := by rfl) (hstate : t.sessState = s.sessState := by rfl)
    (hphase : t.sessPhase = s.sessPhase := by rfl) (hlink : t.link = s.link := by rfl)
    (hlen : t.cmdLen = s.cmdLen := by rfl) (hck : t.rdCk = s.rdCk := by rfl) (hbuf : t.cmdBuf = s.cmdBuf := by rfl)
    (he : t.epoch = s.epoch := by rfl) : SesAgrees t := by
  cases hp : s.sessPhase with
  | entry =>
    simp only [SesAgrees, hphase, hp, hstate, hlink] at h ⊢
    obtain ⟨hs, hl, hrx, htx⟩ := h
    have hoff : s.rxEn = false := by simp [State.rxEn, hl]
    obtain ⟨-, hrx', htx'⟩ := hdown ⟨hoff, hrx, htx⟩ (by simp [hs, stStart, stWaitingForCommand])
    exact ⟨hs, hl, hrx', htx'⟩
  | sleepRestart =>
    rw [sesAgrees_iff_of_sleepRestart hp] at h
    obtain ⟨hs, hl⟩ := h
    rw [sesAgrees_iff_of_sleepRestart (hphase.trans hp), hstate]
    have hns : s.sessState ≠ stWaitingForCommand := by
      obtain hs | hs := hs <;> simp [hs, stStart, stReset, stWaitingForCommand]
    exact ⟨hs, hdown hl hns⟩
  | command f pt =>
    obtain ⟨hw, hr⟩ := (sesAgrees_iff_of_command hp).mp h
    rw [sesAgrees_iff_of_command (hphase.trans hp), AwaitsCommands, hstate, hlink]
    exact ⟨hw, hr.of_same hlen hck hbuf he⟩
  | stuck => simp only [SesAgrees, hp] at h
  | _ => simpa only [SesAgrees, hphase, hp, hstate, hlink, hcfg] using h

/-! Each entry of a state of the session agrees with it. -/

theorem linkDown_linkReset (s : State) : LinkDown s.linkReset :=
  ⟨(link_linkReset s).1, (isEmpty_iff _).mp rfl, (isEmpty_iff _).mp rfl⟩

theorem sesAgrees_enterStart (s : State) : SesAgrees s.enterStart :=
  (sesAgrees_iff_of_sleepRestart rfl).mpr ⟨.inl rfl, linkDown_linkReset { s with sessState := stStart }⟩

theorem sesAgrees_enterReset (s : State) : SesAgrees s.enterReset :=
  (sesAgrees_iff_of_sleepRestart rfl).mpr ⟨.inr rfl, linkDown_linkReset { s with sessState := stReset }⟩

/-- Init turns receive on at the initial rate, whatever the link was (R252). -/
theorem link_enterInit (s : State) : s.enterInit.link = 1#2 := by
  show BitVec.ofBool ((BitVec.ofBool false ++ BitVec.ofBool s.rxEn).getLsbD 1) ++ BitVec.ofBool true = 1#2
  cases s.rxEn <;> rfl

/-- SetSpeed selects the negotiated rate and leaves receive as it is (R254). -/
theorem link_enterSetSpeed (s : State) : s.enterSetSpeed.link = BitVec.ofBool true ++ BitVec.ofBool s.rxEn := rfl

theorem sesAgrees_enterInit (hv : s.cfg.valid = true) : SesAgrees s.enterInit :=
  ⟨rfl, link_enterInit s, Config.desc_pos hv⟩

theorem sesAgrees_enterWaitingForAck (hl : s.link = 1#2) : SesAgrees s.enterWaitingForAck := ⟨rfl, hl⟩

theorem sesAgrees_enterSetSpeed (hl : s.link = 1#2) : SesAgrees s.enterSetSpeed :=
  ⟨rfl, by rw [link_enterSetSpeed, State.rxEn, hl]; rfl⟩

theorem sesAgrees_enterWaitingForCommand (hl : s.link = 3#2) : SesAgrees s.enterWaitingForCommand := ⟨rfl, hl⟩

/-- The end of an exchange stays in WaitingForCommand, at the next frame or at the Stop push (R255). -/
theorem sesAgrees_finishFrame (h : AwaitsCommands s) (k : ErrKind) : SesAgrees (s.finishFrame k) := by
  obtain ⟨-, hf⟩ | ⟨-, hf⟩ := finishFrame_cases s k <;> rw [hf]
  · exact ⟨rfl, h.2⟩
  · exact h

/-! The command reader's registers agree with what it has read. -/

/-- The read of a frame begins with its length, its seed and no byte (R210). -/
theorem sesAgrees_beginRead (h : AwaitsCommands s) (hf : StartsRead f) : SesAgrees (s.beginRead f) := by
  have hlen : (s.beginRead f).cmdLen.toNat = 2 ^ (selOf f).toNat := toNat_cmdLen_beginRead hf.2
  refine (sesAgrees_iff_of_command (f := f) (pt := .payload 0) rfl).mpr ⟨h, ⟨hf.1, hf.2, ?_, rfl, by simp⟩, ?_⟩
  · rw [hlen, toNat_payloadLength hf.2]
  · rw [hlen]
    exact Nat.two_pow_pos _

theorem readBytes_concat (s : State) (sp : Space) (a n : Nat) :
    s.readBytes sp a (n + 1) = s.readBytes sp a n ++ [s.readByte sp (a + n)] := by
  simp [State.readBytes, List.range_succ]

theorem takePayload_eq (s : State) (f : Byte) (k : Nat) (r : Byte) :
    s.takePayload f k r = ({ s.cmdBufWrite k r with rdCk := s.rdCk ^^^ r } : State).sesWait
      (if k + 1 < s.cmdLen.toNat then .command f (.payload (k + 1)) else .command f .checksum) := by
  rw [State.takePayload, readPoint, apply_ite (SesPhase.command f)]

/-- After payload byte `k` the reader has read `k + 1` bytes (R211). -/
theorem ReadSoFar.takePayload {k : Nat} (h : ReadSoFar s f k) (r : Byte) :
    ReadSoFar (s.takePayload f k r) f (k + 1) := by
  obtain ⟨hc, hsel, hlen, hck, hlisted⟩ := h
  have hbefore : (s.takePayload f k r).readBytes .cmdBuf 0 k = s.readBytes .cmdBuf 0 k := by
    refine List.map_congr_left fun j hj => ?_
    have hne : 0 + j ≠ k := by
      have := List.mem_range.mp hj
      omega
    rw [readByte_takePayload, if_neg hne]
  refine ⟨hc, hsel, hlen, ?_, fun j hj => ?_⟩
  · rw [readBytes_concat, hbefore, readByte_takePayload, if_pos (Nat.zero_add k), checksum_append, ← hck]
    rfl
  · have hbuf : (s.takePayload f k r).cmdBuf = s.cmdBuf.write k r := rfl
    rw [hbuf, Memory.read_write]
    split
    · rfl
    · exact hlisted j (by omega)

/-- After payload byte `k` SES waits for the next one, or for the checksum byte after the last (R210). -/
theorem sesAgrees_takePayload {k : Nat} (h : AwaitsCommands s) (hr : ReadAt s f (.payload k)) (r : Byte) :
    SesAgrees (s.takePayload f k r) := by
  obtain ⟨hread, hk⟩ := hr
  refine (sesAgrees_iff_of_command rfl).mpr ⟨h, ?_⟩
  have hnext := hread.takePayload r
  have hlen : (s.takePayload f k r).cmdLen = s.cmdLen := rfl
  rw [readPoint]
  split
  · next hlt => exact ⟨hnext, hlt⟩
  · next hge =>
    have hlast : k + 1 = s.cmdLen.toNat := by omega
    rw [ReadAt, hlen, ← hlast]
    exact hnext

/-- At each point of a command behind its payload all of it has been read (R210). -/
theorem sesAgrees_of_payload_read {pt : CmdPoint} (hp : s.sessPhase = .command f pt) (hpt : ∀ k, pt ≠ .payload k)
    (h : AwaitsCommands s) (hr : ReadAt s f .checksum) : SesAgrees s := by
  refine (sesAgrees_iff_of_command hp).mpr ⟨h, ?_⟩
  cases pt with
  | payload k => exact absurd rfl (hpt k)
  | checksum | push e | forward => exact hr

/-- After a good read SES pushes the command's event, forwards its payload, or ends the exchange (R217 to R219). -/
theorem sesAgrees_commandCase (h : AwaitsCommands s) (hr : ReadAt s f .checksum) : SesAgrees (commandCase f s) := by
  unfold commandCase writeCase
  split_ifs
  · exact sesAgrees_of_payload_read rfl (by simp) h hr.of_same
  · exact sesAgrees_of_payload_read rfl (by simp) h hr.of_same
  · exact sesAgrees_of_payload_read rfl (by simp) h hr.of_same
  · exact sesAgrees_finishFrame h _

/-! Each kind of transition keeps SES at a wait point of its state. -/

/-- A port pushes to RX only while receive is on, pops TX only where it holds a byte, and sends only in
WaitingForCommand: it leaves a link that is down so (R130, R131, R262). -/
theorem PortEffect.sesAgrees {i : Instr} (h : PortEffect i s t) (hs : SesAgrees s) : SesAgrees t := by
  cases h with
  | answer | fault | hold | load | write => exact hs.of_same fun hd _ => hd
  | drop c => cases c <;> exact hs.of_same fun hd _ => hd
  | push c v u hc hu =>
    obtain ⟨-, rfl⟩ := state_of_cbPush hu
    obtain rfl | ⟨rfl, hx⟩ := hc
    · exact hs.of_same fun hd _ => hd
    · exact hs.of_same fun hd _ => absurd (hx.symm.trans hd.1) (by simp)
  | pop v u hu =>
    obtain ⟨hne, -, rfl⟩ := state_of_cbPop hu
    refine hs.of_same fun ⟨_, _, htx⟩ _ => ?_
    have hempty : s.cbEmpty .tx = true := (isEmpty_iff _).mpr htx
    exact absurd (hne.symm.trans hempty) (by simp)
  | send m sel a n u hw _ _ hu =>
    obtain ⟨c, rfl⟩ := state_of_cbPushAll hu
    exact hs.of_same fun _ hns => absurd hw hns

/-- A push or a pop of a buffer leaves SES in WaitingForCommand. -/
theorem AwaitsCommands.of_same (h : AwaitsCommands s) (hstate : t.sessState = s.sessState := by rfl)
    (hlink : t.link = s.link := by rfl) : AwaitsCommands t := by
  rw [AwaitsCommands, hstate, hlink]
  exact h

theorem SesEffect.sesAgrees (h : SesEffect s t) (hv : s.cfg.valid = true) (hs : SesAgrees s) : SesAgrees t := by
  cases h with
  | stay => exact hs
  | bad h6 => exact absurd hs.sessState_lt (by omega)
  | enter hp =>
    rw [hs.enterCurrent_eq hp]
    exact sesAgrees_enterStart s
  | init hp => exact sesAgrees_enterInit hv
  | sent k hp =>
    simp only [SesAgrees, hp] at hs
    obtain ⟨-, hlink, -⟩ := hs
    exact sesAgrees_enterWaitingForAck hlink
  | send k b u hp _ hu =>
    obtain ⟨-, rfl⟩ := state_of_cbPush hu
    simp only [SesAgrees, hp] at hs
    obtain ⟨hstate, hlink, -⟩ := hs
    split
    · next hk => exact ⟨hstate, hlink, hk⟩
    · exact sesAgrees_enterWaitingForAck hlink
  | ack u hp hu =>
    obtain ⟨-, -, rfl⟩ := state_of_cbPop hu
    simp only [SesAgrees, hp] at hs
    exact sesAgrees_enterSetSpeed hs.2
  | notAck | ackTimeout => exact sesAgrees_enterStart _
  | speedSet hp =>
    simp only [SesAgrees, hp] at hs
    exact hs
  | started u hp hu =>
    obtain ⟨-, rfl⟩ := state_of_cbPush hu
    simp only [SesAgrees, hp] at hs
    exact sesAgrees_enterWaitingForCommand hs.2
  | startTimeout | stopped | stopTimeout => exact sesAgrees_enterReset _
  | frame f k u hp hu =>
    have hw := hs.awaitsCommands (.inl hp)
    obtain ⟨-, -, rfl⟩ := state_of_cbPop hu
    exact sesAgrees_finishFrame hw.of_same k
  | beginRead f u hp hu hf =>
    have hw := hs.awaitsCommands (.inl hp)
    obtain ⟨-, -, rfl⟩ := state_of_cbPop hu
    exact sesAgrees_beginRead hw.of_same hf
  | timeout hp => exact sesAgrees_finishFrame (hs.awaitsCommands (hp.imp_right .inl)) _
  | payload f k r u hp hu =>
    obtain ⟨hw, hr⟩ := (sesAgrees_iff_of_command hp).mp hs
    rw [← takePayload_eq]
    obtain ⟨-, -, rfl⟩ := state_of_cbPop hu
    exact sesAgrees_takePayload hw.of_same hr.of_same r
  | mismatch f r u hp hu =>
    have hw := hs.awaitsCommands (.inr (.inl ⟨f, _, hp⟩))
    obtain ⟨-, -, rfl⟩ := state_of_cbPop hu
    exact sesAgrees_finishFrame hw.of_same _
  | good f r u hp _ hu _ =>
    obtain ⟨hw, hr⟩ := (sesAgrees_iff_of_command hp).mp hs
    obtain ⟨-, -, rfl⟩ := state_of_cbPop hu
    exact sesAgrees_commandCase hw.of_same hr.of_same
  | pushed f e u hp hu =>
    have hw := hs.awaitsCommands (.inr (.inl ⟨f, _, hp⟩))
    obtain ⟨-, rfl⟩ := state_of_cbPush hu
    exact sesAgrees_finishFrame hw.of_same _
  | stray f pt k hp => exact sesAgrees_finishFrame (hs.awaitsCommands (.inr (.inl ⟨f, pt, hp⟩))) k

end Agrees

/-! ### What the flags and the result hold (R30, R33, R36) -/

/-- Only a finite wait of SES has expired, DSP is not stuck, and neither BAD_STATE nor a reserved bit or value was
produced. -/
def RegistersLegal (s : State) : Prop :=
  (s.sesExpired = true → s.sesWaitMs.isSome = true) ∧ s.dspPhase ≠ .stuck ∧ s.fault &&& 0xFC#8 = 0#8 ∧
  s.sesResult ≠ 5#3 ∧ s.sesResult ≠ 6#3

/-- From `s` to `t` SES began a wait, perhaps after it wrote a result. -/
def WaitBegun (s t : State) : Prop :=
  t.sesExpired = false ∧ t.dspPhase = s.dspPhase ∧ t.fault = s.fault ∧
  (t.sesResult = s.sesResult ∨ ∃ k, t.sesResult = errCode k)

section Registers

variable {s t u : State}

theorem blockInv_iff : BlockInv s ↔ BufferInv s ∧ SesAgrees s ∧ RegistersLegal s := Iff.rfl

/-- Whether a wait is timed depends on where SES stands alone (R323). -/
theorem isSome_sesWaitMs_congr (hp : t.sessPhase = s.sessPhase) : t.sesWaitMs.isSome = s.sesWaitMs.isSome := by
  rw [State.sesWaitMs, State.sesWaitMs, hp]
  rcases s.sessPhase with _ | _ | _ | _ | _ | _ | _ | ⟨f, _ | _ | _ | _⟩ | _ | _ <;> rfl

/-- A state made by updates of other fields meets each condition by computation. -/
theorem RegistersLegal.of_same (h : RegistersLegal s) (hphase : t.sessPhase = s.sessPhase := by rfl)
    (hx : t.sesExpired = s.sesExpired := by rfl) (hdsp : t.dspPhase = s.dspPhase := by rfl)
    (hfault : t.fault = s.fault := by rfl) (hresult : t.sesResult = s.sesResult := by rfl) : RegistersLegal t := by
  simpa only [RegistersLegal, isSome_sesWaitMs_congr hphase, hx, hdsp, hfault, hresult] using h

/-- No error kind has a reserved code (R30). -/
theorem errCode_ne_reserved (k : ErrKind) : errCode k ≠ 5#3 ∧ errCode k ≠ 6#3 := by
  cases k <;> decide

/-- A new wait has not expired, whatever its kind (R36). -/
theorem RegistersLegal.of_waitBegun (h : RegistersLegal s) (hw : WaitBegun s t) : RegistersLegal t := by
  obtain ⟨-, hdsp, hfault, hresult⟩ := h
  obtain ⟨hx, hd, hf, hr⟩ := hw
  refine ⟨by simp [hx], hd ▸ hdsp, hf ▸ hfault, ?_⟩
  obtain hr | ⟨k, hr⟩ := hr <;> rw [hr]
  · exact hresult
  · exact errCode_ne_reserved k

/-- What SES pushed or popped before it began the wait does not matter. -/
theorem WaitBegun.after (h : WaitBegun u t) (hdsp : u.dspPhase = s.dspPhase) (hfault : u.fault = s.fault)
    (hresult : u.sesResult = s.sesResult) : WaitBegun s t := by
  simpa only [WaitBegun, hdsp, hfault, hresult] using h

theorem waitBegun_of_cbPush {i : Inst} {v : Byte} (hu : s.cbPush i v = some u) (h : WaitBegun u t) :
    WaitBegun s t :=
  have hframe := frame_of_cbPush hu
  h.after (hframe .dspPhase (by simp)) (hframe .fault (by simp)) (hframe .sesResult (by simp))

theorem waitBegun_of_cbPop {i : Inst} {v : Byte} (hu : s.cbPop i = some (v, u)) (h : WaitBegun u t) :
    WaitBegun s t :=
  have hframe := frame_of_cbPop hu
  h.after (hframe .dspPhase (by simp)) (hframe .fault (by simp)) (hframe .sesResult (by simp))

/-- A wait that begins with the result as it is, by updates of other fields. -/
theorem WaitBegun.of_same (hx : t.sesExpired = false := by rfl) (hdsp : t.dspPhase = s.dspPhase := by rfl)
    (hfault : t.fault = s.fault := by rfl) (hresult : t.sesResult = s.sesResult := by rfl) : WaitBegun s t :=
  ⟨hx, hdsp, hfault, .inl hresult⟩

/-- A wait that begins after the result `k`, by updates of other fields. -/
theorem WaitBegun.of_result (k : ErrKind) (hx : t.sesExpired = false := by rfl)
    (hdsp : t.dspPhase = s.dspPhase := by rfl) (hfault : t.fault = s.fault := by rfl)
    (hresult : t.sesResult = errCode k := by rfl) : WaitBegun s t :=
  ⟨hx, hdsp, hfault, .inr ⟨k, hresult⟩⟩

theorem waitBegun_finishFrame (k : ErrKind) : WaitBegun s (s.finishFrame k) := by
  obtain ⟨rfl, h⟩ | ⟨-, h⟩ := finishFrame_cases s k <;> rw [h]
  · exact .of_result .success
  · exact .of_result k

theorem waitBegun_commandCase (f : Byte) : WaitBegun s (commandCase f s) := by
  unfold commandCase writeCase
  split_ifs
  · exact .of_same
  · exact .of_same
  · exact .of_same
  · exact waitBegun_finishFrame _

/-- Every transition of SES in one of its states changes nothing, or begins a wait (R240). -/
theorem SesEffect.waitBegun (h : SesEffect s t) (hs : SesAgrees s) : t = s ∨ WaitBegun s t := by
  cases h with
  | stay => exact .inl rfl
  | bad h6 => exact absurd hs.sessState_lt (by omega)
  | enter hp => exact hs.enterCurrent_eq hp ▸ .inr .of_same
  | init | sent | speedSet | stopTimeout => exact .inr .of_same
  | send k b u _ _ hu => split <;> exact .inr (waitBegun_of_cbPush hu .of_same)
  | started u _ hu | stopped u _ hu => exact .inr (waitBegun_of_cbPush hu .of_same)
  | ackTimeout | startTimeout => exact .inr (.of_result .timeout)
  | ack u _ hu => exact .inr (waitBegun_of_cbPop hu (.of_result .success))
  | notAck r u _ hu => exact .inr (waitBegun_of_cbPop hu (.of_result .notExpectedCommand))
  | beginRead f u _ hu | payload f k r u _ hu => exact .inr (waitBegun_of_cbPop hu .of_same)
  | timeout | stray => exact .inr (waitBegun_finishFrame _)
  | frame f k u _ hu | mismatch f r u _ hu => exact .inr (waitBegun_of_cbPop hu (waitBegun_finishFrame _))
  | pushed f e u _ hu => exact .inr (waitBegun_of_cbPush hu (waitBegun_finishFrame _))
  | good f r u _ _ hu => exact .inr (waitBegun_of_cbPop hu (waitBegun_commandCase f))

/-- A fault of a port sets no reserved bit of FAULT, nor BAD_STATE (R33, R310). -/
theorem fault_or_causeBit {x : Byte} (h : x &&& 0xFC#8 = 0#8) (c : Cause) : (x ||| causeBit c) &&& 0xFC#8 = 0#8 := by
  revert x
  cases c <;> decide

theorem PortEffect.registersLegal {i : Instr} (h : PortEffect i s t) (hr : RegistersLegal s) : RegistersLegal t := by
  cases h with
  | answer | hold | load | write => exact hr.of_same
  | fault c =>
    obtain ⟨hx, hdsp, hfault, hresult⟩ := hr
    exact ⟨hx, hdsp, fault_or_causeBit hfault c, hresult⟩
  | drop c => cases c <;> exact hr.of_same
  | push c v u _ hu =>
    obtain ⟨-, rfl⟩ := state_of_cbPush hu
    cases c <;> exact hr.of_same
  | pop v u hu =>
    obtain ⟨-, -, rfl⟩ := state_of_cbPop hu
    exact hr.of_same
  | send m sel a n u _ _ _ hu =>
    obtain ⟨c, rfl⟩ := state_of_cbPushAll hu
    exact hr.of_same

end Registers

/-! ### Each kind of transition keeps the block legal -/

section Legal

variable {s t : State}

theorem PortEffect.blockInv {i : Instr} (h : PortEffect i s t) (hi : BlockInv s) : BlockInv t := by
  obtain ⟨hb, hs, hr⟩ := blockInv_iff.mp hi
  exact blockInv_iff.mpr ⟨h.bufferInv hb, h.sesAgrees hs, h.registersLegal hr⟩

theorem SesEffect.blockInv (h : SesEffect s t) (hi : BlockInv s) : BlockInv t := by
  obtain ⟨hb, hs, hr⟩ := blockInv_iff.mp hi
  refine blockInv_iff.mpr ⟨h.bufferInv hb, h.sesAgrees hb.1 hs, ?_⟩
  obtain rfl | hw := h.waitBegun hs
  · exact hr
  · exact hr.of_waitBegun hw

/-- DSP takes its event from EQ alone, and is not stuck (R290). -/
theorem DspEffect.blockInv (h : DspEffect s t) (hi : BlockInv s) : BlockInv t := by
  obtain ⟨hb, hs, hr⟩ := blockInv_iff.mp hi
  have hbuf := h.bufferInv hb
  obtain ⟨hx, -, hfault, hresult⟩ := hr
  cases h with
  | stay => exact hi
  | request k n u _ _ hu | consume n u _ hu =>
    obtain ⟨-, -, rfl⟩ := state_of_cbPop hu
    exact blockInv_iff.mpr ⟨hbuf, hs.of_same fun hd _ => hd, hx, by simp, hfault, hresult⟩

theorem BlockInv.expire (hi : BlockInv s) (w : Wait) : BlockInv (s.expire w) := by
  obtain ⟨hb, hs, hr⟩ := blockInv_iff.mp hi
  refine blockInv_iff.mpr ⟨hb.expire w, ?_⟩
  obtain h | ⟨-, hfinite, h⟩ | ⟨p, x, -, -, -, h⟩ := expire_cases s w <;> rw [h]
  · exact ⟨hs, hr⟩
  · obtain ⟨-, hrest⟩ := hr
    exact ⟨hs.of_same fun hd _ => hd, fun _ => hfinite, hrest⟩
  · exact ⟨hs.of_same fun hd _ => hd, hr.of_same⟩

/-- The block is legal after reset, in every legal configuration (R341, R342). -/
theorem blockInv_resetWith {c : Config} (hv : c.valid = true) : BlockInv (State.resetWith c) :=
  blockInv_iff.mpr ⟨bufferInv_resetWith hv, ⟨rfl, rfl, (isEmpty_iff _).mp rfl, (isEmpty_iff _).mp rfl⟩,
    by simp [RegistersLegal, State.resetWith]⟩

theorem BlockInv.driveReset (hi : BlockInv s) (level : Bool) : BlockInv (s.driveReset level) := by
  obtain ⟨hb, hs, hr⟩ := blockInv_iff.mp hi
  obtain ⟨-, h⟩ | ⟨-, -, h⟩ | ⟨-, -, h⟩ := driveReset_cases s level <;> rw [h]
  · exact blockInv_iff.mpr ⟨hb.of_same, hs.of_same fun hd _ => hd, hr.of_same⟩
  · obtain ⟨hb', hs', hr'⟩ := blockInv_iff.mp (blockInv_resetWith hb.1)
    exact blockInv_iff.mpr ⟨hb'.of_same, hs', hr'.of_same⟩
  · exact hi

theorem StepEffect.blockInv (h : StepEffect s t) (hi : BlockInv s) : BlockInv t := by
  obtain ⟨hb, hs, hr⟩ := blockInv_iff.mp hi
  cases h with
  | stay => exact hi
  | port p w t _ h =>
    exact h.blockInv (blockInv_iff.mpr ⟨hb.of_same, hs.of_same fun hd _ => hd, hr.of_same⟩)
  | ses t h => exact h.blockInv hi
  | dsp t h => exact h.blockInv hi
  | expire w => exact hi.expire w
  | ackRequest =>
    obtain ⟨hx, -, hfault, hresult⟩ := hr
    exact blockInv_iff.mpr ⟨hb.of_same, hs.of_same fun hd _ => hd, hx, by simp, hfault, hresult⟩
  | ackForward f hp =>
    exact blockInv_iff.mpr ⟨hb.finishFrame _,
      sesAgrees_finishFrame (hs.awaitsCommands (.inr (.inl ⟨f, _, hp⟩))) _,
      hr.of_waitBegun (waitBegun_finishFrame _)⟩
  | ackBad f hp h6 => exact absurd hs.sessState_lt (by omega)
  | drive level => exact hi.driveReset level

end Legal

/-- Settles O53: each kind of transition keeps the buffers, the place of SES and the registers legal. -/
theorem everyStepKeepsBlockLegal : Obligations.EveryStepKeepsBlockLegal := by
  intro s t hi h
  obtain ⟨-, i, n, hstep⟩ := step_effect h
  obtain ⟨hb, hs, hr⟩ := blockInv_iff.mp hi
  exact hstep.blockInv (blockInv_iff.mpr ⟨hb.of_same, hs.of_same fun hd _ => hd, hr.of_same⟩)

end Sys2Proof.Machine
end

section
/-! PROOFS of the statements about 45_session.md, continued: how the session starts, restarts and reaches
WaitingForCommand (R240 to R254), what the sample buffer and SEND_DATA do (R260 to R262), and what the status operations
read (R264 to R267). -/

namespace Sys2Proof.Machine

/-! ### The link reset and the restarts (R241, R250, R251) -/

/-- Settles O32: the link reset writes RX_EN and the counters of RX and TX. -/
theorem linkResetEffect : Obligations.LinkResetEffect := by
  intro s
  obtain ⟨hrx, hbaud⟩ := link_linkReset s
  exact ⟨hrx, hbaud, rfl, rfl, rfl, rfl, frame_linkReset s⟩

/-- From `s` to `t` the session restarted from the state `x`, as `RestartedFromReset` says of Reset: the link is reset,
and the sleep began. -/
def RestartedFrom (x : BitVec 3) (s t : State) : Prop :=
  t.sessState = x ∧ t.sessPhase = .sleepRestart ∧ t.sesExpired = false ∧
  t.link.getLsbD 0 = false ∧ t.link.getLsbD 1 = s.link.getLsbD 1 ∧
  t.cbRx.rd = 0#8 ∧ t.cbRx.wr = 0#8 ∧ t.cbTx.rd = 0#8 ∧ t.cbTx.wr = 0#8 ∧ t.cbEq = s.cbEq ∧
  Frame [.sessState, .sessPhase, .sesExpired, .link, .rd .rx, .wr .rx, .rd .tx, .wr .tx] s t

/-- From `s` to `t` the exchange ended with the result `k`, and the session restarted from the state `x`. -/
def FailedTo (k : ErrKind) (x : BitVec 3) (s t : State) : Prop :=
  t.sesResult = errCode k ∧ t.sessState = x ∧ t.sessPhase = .sleepRestart ∧ t.sesExpired = false ∧
  t.link.getLsbD 0 = false ∧ t.link.getLsbD 1 = s.link.getLsbD 1 ∧
  t.cbRx.rd = 0#8 ∧ t.cbRx.wr = 0#8 ∧ t.cbTx.rd = 0#8 ∧ t.cbTx.wr = 0#8 ∧ t.cbEq = s.cbEq ∧
  Frame [.sesResult, .sessState, .sessPhase, .sesExpired, .link, .rd .rx, .wr .rx, .rd .tx, .wr .tx] s t

section Restart

variable {s t u : State}

theorem restartedFrom_enterStart (s : State) : RestartedFrom 0#3 s s.enterStart := by
  obtain ⟨hrx, hbaud⟩ := link_linkReset { s with sessState := stStart }
  have hstate : Frame [.sessState] s { s with sessState := stStart } :=
    (Frame.of_registers).of_same (by simp [Field.same])
  exact ⟨rfl, rfl, rfl, hrx, hbaud, rfl, rfl, rfl, rfl, rfl,
    ((hstate.trans (frame_linkReset _)).trans (frame_sesWait _ .sleepRestart)).mono (by simp)⟩

theorem restartedFrom_enterReset (s : State) : RestartedFrom 1#3 s s.enterReset := restartedFromReset_enterReset s

theorem frame_setResult (s : State) (k : ErrKind) : Frame [.sesResult] s (s.setResult k) :=
  (Frame.of_registers).of_same (by simp [Field.same])

/-- A restart after the result is written keeps that result (R315). -/
theorem RestartedFrom.failedTo {k : ErrKind} {x : BitVec 3} (h : RestartedFrom x (s.setResult k) t) :
    FailedTo k x s t := by
  obtain ⟨hstate, hphase, hexpired, hrx, hbaud, hrxRd, hrxWr, htxRd, htxWr, heq, hframe⟩ := h
  have hresult : t.sesResult = errCode k := hframe .sesResult (by simp)
  exact ⟨hresult, hstate, hphase, hexpired, hrx, hbaud, hrxRd, hrxWr, htxRd, htxWr, heq,
    (frame_setResult s k).trans hframe⟩

/-- The byte that ended the exchange is gone with the rest of RX (R241, R253). -/
theorem FailedTo.of_cbPop {k : ErrKind} {x : BitVec 3} {r : Byte} (h : FailedTo k x u t)
    (hu : s.cbPop .rx = some (r, u)) : FailedTo k x s t := by
  obtain ⟨hresult, hstate, hphase, hexpired, hrx, hbaud, hrxRd, hrxWr, htxRd, htxWr, heq, hframe⟩ := h
  have hall := (frame_of_cbPop hu).trans hframe
  obtain ⟨-, -, rfl⟩ := state_of_cbPop hu
  exact ⟨hresult, hstate, hphase, hexpired, hrx, hbaud, hrxRd, hrxWr, htxRd, htxWr, heq, hall.mono (by simp)⟩

/-! ### What SES does at each wait point (R240) -/

theorem sesStep_of_entry (h6 : s.sessState.toNat ≤ 5) (hp : s.sessPhase = .entry) :
    sesStep s = .next s.enterCurrent := by
  simp [sesStep, hp, Nat.not_le.mpr (Nat.lt_succ_of_le h6)]

/-- The sleep of Start and Reset ends only by expiry (R250, R251). -/
theorem sesStep_of_sleepRestart (h6 : s.sessState.toNat ≤ 5) (hp : s.sessPhase = .sleepRestart) :
    sesStep s = .next (if s.sesExpired then s.enterInit else s) := by
  simp [sesStep, sleepStep, hp, Nat.not_le.mpr (Nat.lt_succ_of_le h6)]

theorem sesStep_of_txPut {k : Nat} (hs : s.sessState = 2#3) (hp : s.sessPhase = .txPut k) :
    sesStep s = .next (txPutStep k s) := by
  simp [sesStep, hp, hs]

theorem sesStep_of_getAck (hs : s.sessState = 3#3) (hp : s.sessPhase = .getAck) : sesStep s = ackStep s := by
  simp [sesStep, hp, hs]

/-- The sleep of SetSpeed ends only by expiry (R254). -/
theorem sesStep_of_sleepSpeed (hs : s.sessState = 4#3) (hp : s.sessPhase = .sleepSpeed) :
    sesStep s = .next (if s.sesExpired then s.sesWait .pushStart else s) := by
  simp [sesStep, sleepStep, hp, hs]

theorem sesStep_of_pushStart (hs : s.sessState = 4#3) (hp : s.sessPhase = .pushStart) :
    sesStep s = .next (startPushStep s) := by
  simp [sesStep, hp, hs]

/-- The entry of Start and of Reset is that state's restart (R250, R251). -/
theorem restartedFrom_enterCurrent (hs : s.sessState = 0#3 ∨ s.sessState = 1#3) :
    RestartedFrom s.sessState s s.enterCurrent := by
  obtain hs | hs := hs <;> rw [State.enterCurrent, hs]
  · exact restartedFrom_enterStart s
  · exact restartedFrom_enterReset s

theorem frame_enterInit (s : State) : Frame [.sessState, .link, .sessPhase, .sesExpired] s s.enterInit :=
  (Frame.of_registers).of_same (by simp [Field.same, State.enterInit])

end Restart

/-- Settles O33: the entry restarts, and the sleep goes on until it has expired. -/
theorem restartSleepInit : Obligations.RestartSleepInit := by
  intro s hr
  rw [transition_ses hr]
  refine ⟨fun hp hs => ?entry, fun hp h6 => ⟨fun hx => ?sleeps, fun hx => ?expired⟩⟩
  case entry =>
    have h6 : s.sessState.toNat ≤ 5 := by obtain hs | hs := hs <;> rw [hs] <;> decide
    obtain ⟨hstate, hphase, hexpired, hrx, hbaud, hrxRd, hrxWr, htxRd, htxWr, -, hframe⟩ :=
      restartedFrom_enterCurrent hs
    exact ⟨_, sesStep_of_entry h6 hp, hphase, hexpired, hrx, hbaud, hrxRd, hrxWr, htxRd, htxWr,
      hframe.of_same (by simp [Field.same, hstate])⟩
  case sleeps => rw [sesStep_of_sleepRestart h6 hp, hx]; rfl
  case expired =>
    rw [sesStep_of_sleepRestart h6 hp, if_pos hx]
    exact ⟨_, rfl, rfl, link_enterInit s, rfl, rfl, frame_enterInit s⟩

/-! ### Init (R252, R244) -/

section Init

variable {s u : State} {k : Nat} {b : Byte}

theorem txPutStep_of_full (hd : s.cfg.desc[k]? = some b) (hf : s.cbFull .tx = true) : txPutStep k s = s := by
  simp [txPutStep, hd, State.txPut, hf]

theorem txPutStep_of_cbPush (hd : s.cfg.desc[k]? = some b) (hu : s.cbPush .tx b = some u) :
    txPutStep k s = if k + 1 < s.cfg.desc.length then u.sesWait (.txPut (k + 1)) else u.enterWaitingForAck := by
  simp [txPutStep, hd, State.txPut, (state_of_cbPush hu).1, hu]

theorem frame_enterWaitingForAck (s : State) : Frame [.sessState, .sessPhase, .sesExpired] s s.enterWaitingForAck :=
  (Frame.of_registers).of_same (by simp [Field.same, State.enterWaitingForAck])

end Init

/-- Settles O34: a full TX holds SES, and a push takes it to the next byte or, after the last, to WaitingForAck. -/
theorem initSendsDescriptor : Obligations.InitSendsDescriptor := by
  intro s k b hv hr hs hp hd
  rw [transition_ses hr, sesStep_of_txPut hs hp]
  refine ⟨fun hf => by rw [txPutStep_of_full hd hf], fun hf => ?_⟩
  obtain ⟨u, hu⟩ := Option.isSome_iff_exists.mp (cbPush_isSome s .tx b hf)
  have hpush := frame_of_cbPush hu
  have hstate : u.sessState = s.sessState := hpush .sessState (by simp)
  have hqueue := queue_push hv hu
  rw [txPutStep_of_cbPush hd hu]
  split_ifs
  · exact ⟨_, rfl, hqueue, rfl, ⟨hstate.trans hs, rfl⟩, (hpush.trans (frame_sesWait u _)).mono (by simp)⟩
  · exact ⟨_, rfl, hqueue, rfl, ⟨rfl, rfl⟩, (hpush.trans (frame_enterWaitingForAck u)).mono (by simp)⟩

/-! ### WaitingForAck (R253) -/

section Ack

variable {s u : State} {r : Byte}

theorem ackStep_of_empty (he : s.cbEmpty .rx = true) :
    ackStep s = .next (if s.sesExpired then s.failAck .timeout else s) := by
  rw [ackStep, getByte_of_empty he]
  cases s.sesExpired <;> rfl

theorem ackStep_of_other (hu : s.cbPop .rx = some (r, u)) (hr : r ≠ 0x04#8) :
    ackStep s = .next (u.failAck .notExpectedCommand) := by
  simp [ackStep, getByte_of_cbPop hu, decode, decodeAck, hr]

theorem failedTo_failAck (s : State) (k : ErrKind) : FailedTo k 0#3 s (s.failAck k) :=
  (restartedFrom_enterStart (s.setResult k)).failedTo

end Ack

/-- Settles O35: silence and a wrong byte each end the exchange, and Start's restart follows. -/
theorem ackWaitRestarts : Obligations.AckWaitRestarts := by
  intro s hr hs hp
  rw [transition_ses hr, sesStep_of_getAck hs hp]
  refine ⟨fun he hx => ?waits, fun he hx => ?silence, fun he hb => ?wrong⟩
  case waits => rw [ackStep_of_empty he, hx]; rfl
  case silence => exact ⟨_, by rw [ackStep_of_empty he, if_pos hx], failedTo_failAck s .timeout⟩
  case wrong =>
    obtain ⟨⟨r, u⟩, hu⟩ := Option.isSome_iff_exists.mp (cbPop_isSome s .rx he)
    obtain ⟨-, hbyte, -⟩ := state_of_cbPop hu
    exact ⟨_, ackStep_of_other hu (hbyte ▸ hb), (failedTo_failAck u .notExpectedCommand).of_cbPop hu⟩

theorem frame_enterSetSpeed (s : State) : Frame [.sessState, .link, .sessPhase, .sesExpired] s s.enterSetSpeed :=
  (Frame.of_registers).of_same (by simp [Field.same, State.enterSetSpeed])

/-- SetSpeed writes BAUD_SEL alone of the link (R254). -/
theorem link_bits_enterSetSpeed (s : State) :
    s.enterSetSpeed.link.getLsbD 1 = true ∧ s.enterSetSpeed.link.getLsbD 0 = s.link.getLsbD 0 := by
  rw [link_enterSetSpeed, ← State.rxEn]
  cases s.rxEn <;> exact ⟨rfl, rfl⟩

/-- Settles O36: the acknowledgement writes its result and enters SetSpeed. -/
theorem acknowledgeEntersSetSpeed : Obligations.AcknowledgeEntersSetSpeed := by
  refine ⟨rfl, fun s => ?_⟩
  obtain ⟨hbaud, hrx⟩ := link_bits_enterSetSpeed (s.setResult .success)
  exact ⟨_, rfl, rfl, rfl, hbaud, hrx, rfl, rfl, (frame_setResult s .success).trans (frame_enterSetSpeed _)⟩

/-! ### SetSpeed (R254, R246) -/

section SetSpeed

variable {s u : State}

theorem startPushStep_of_cbPush (hu : s.cbPush .eq 0x80#8 = some u) :
    startPushStep s = u.enterWaitingForCommand := by
  have hpush : s.sessionPush (eventByte 4#3 0#8) = .done u := sessionPush_of_cbPush hu
  simp [startPushStep, hpush]

theorem startPushStep_of_full (hf : s.cbFull .eq = true) :
    startPushStep s = if s.sesExpired then (s.setResult .timeout).enterReset else s := by
  rw [startPushStep, sessionPush_of_full hf]
  cases s.sesExpired <;> rfl

theorem frame_enterWaitingForCommand (s : State) :
    Frame [.sessState, .sessPhase, .sesExpired] s s.enterWaitingForCommand :=
  (Frame.of_registers).of_same (by simp [Field.same, State.enterWaitingForCommand])

end SetSpeed

/-- Settles O37: the sleep ends by expiry; then the Start push is done, waits or has expired. -/
theorem setSpeedSignalsStart : Obligations.SetSpeedSignalsStart := by
  intro s hv hr hs
  rw [transition_ses hr]
  refine ⟨fun hp hx => ?sleeps, fun hp hx => ?begins, fun hp hf => ?pushed, fun hp hf hx => ?waits,
    fun hp hf hx => ?expired⟩
  case sleeps => rw [sesStep_of_sleepSpeed hs hp, hx]; rfl
  case begins => exact ⟨_, by rw [sesStep_of_sleepSpeed hs hp, if_pos hx], rfl, rfl, frame_sesWait s .pushStart⟩
  case pushed =>
    obtain ⟨u, hu⟩ := Option.isSome_iff_exists.mp (cbPush_isSome s .eq 0x80#8 hf)
    rw [sesStep_of_pushStart hs hp, startPushStep_of_cbPush hu]
    exact ⟨_, rfl, (queue_push hv hu :), rfl, rfl, rfl, (frame_of_cbPush hu).trans (frame_enterWaitingForCommand u)⟩
  case waits => rw [sesStep_of_pushStart hs hp, startPushStep_of_full hf, hx]; rfl
  case expired =>
    rw [sesStep_of_pushStart hs hp, startPushStep_of_full hf, if_pos hx]
    exact ⟨_, rfl, (restartedFrom_enterReset (s.setResult .timeout)).failedTo⟩

/-! ### The sample buffer (R260, R261) -/

section SampleBuffer

variable {s : State} {a : Byte}

theorem frame_sampleWrite (s : State) (a : Nat) (v : Byte) : Frame [.bytes .sample] s (s.sampleWrite a v) := by
  intro f hf
  cases f with
  | rd i | wr i | drop i => simp [Field.same]
  | bytes sp =>
    have hsp : sp ≠ .sample := by simpa using hf
    simp [Field.same, readByte_sampleWrite, hsp]
  | _ => rfl

/-- A fault of an operation's operands: its bit of FAULT, its status, and nothing else (R310). -/
theorem completes_illegalOperand {i : Instr} (h : exec i s = .next (s.raiseFault .illegalOperand)) :
    Completes i s fun t => t.fault = s.fault ||| 0x02#8 ∧ Answers 0xFE#8 0#8 [.fault] s t :=
  ⟨_, h, rfl, answers_raiseFault s .illegalOperand⟩

theorem exec_sbWrite_of_lt (h : a.toNat < s.cfg.sampleSize) (b : Byte) :
    exec (.sbWrite a b) s = .next ((s.sampleWrite a.toNat b).respond .ok 0x00#8) := by
  simp [exec, execSbWrite, h]

theorem exec_sbRead_of_lt (h : a.toNat < s.cfg.sampleSize) :
    exec (.sbRead a) s = .next (s.respond .ok (s.readByte .sample a.toNat)) := by
  simp [exec, execSbRead, h]

theorem exec_sbWrite_of_le (h : s.cfg.sampleSize ≤ a.toNat) (b : Byte) :
    exec (.sbWrite a b) s = .next (s.raiseFault .illegalOperand) := by
  simp [exec, execSbWrite, h]

theorem exec_sbRead_of_le (h : s.cfg.sampleSize ≤ a.toNat) :
    exec (.sbRead a) s = .next (s.raiseFault .illegalOperand) := by
  simp [exec, execSbRead, h]

end SampleBuffer

/-- Settles O25: the address decides between the byte and the fault. -/
theorem sampleBufferResult : Obligations.SampleBufferResult := by
  refine ⟨encodes_of_decodeOpcode fun _ _ => rfl, encodes_of_decodeOpcode fun _ _ => rfl, fun s a b =>
    ⟨fun h => ⟨?write, completes_respond .ok (exec_sbRead_of_lt h)⟩,
      fun h => ⟨completes_illegalOperand (exec_sbWrite_of_le h b), completes_illegalOperand (exec_sbRead_of_le h)⟩⟩⟩
  refine ⟨_, exec_sbWrite_of_lt h b, ?_, fun x hx => ?_,
    (frame_sampleWrite s a.toNat b).answers .ok 0x00#8 (by simp) (by simp)⟩
  · rw [readByte_respond, readByte_sampleWrite, if_pos ⟨rfl, rfl⟩]
  · rw [readByte_respond, readByte_sampleWrite, if_neg (by simp [hx])]

/-! ### SEND_DATA (R262) -/

/-- The modes run one operation, each with its own number and command word. -/
theorem exec_sendRows {r : Byte × Byte × (Byte → Byte → Instr)} (hr : r ∈ sendRows) :
    ∃ m : BitVec 3, r.2.1 = m.setWidth 8 ∧ ∀ a b s, exec (r.2.2 a b) s = sendOp m (mkCommand r.1 a b) a b s := by
  fin_cases hr
  · exact ⟨0#3, rfl, fun _ _ _ => rfl⟩
  · exact ⟨1#3, rfl, fun _ _ _ => rfl⟩
  · exact ⟨2#3, rfl, fun _ _ _ => rfl⟩
  · exact ⟨3#3, rfl, fun _ _ _ => rfl⟩
  · exact ⟨4#3, rfl, fun _ _ _ => rfl⟩
  · exact ⟨5#3, rfl, fun _ _ _ => rfl⟩
  · exact ⟨6#3, rfl, fun _ _ _ => rfl⟩
  · exact ⟨7#3, rfl, fun _ _ _ => rfl⟩

theorem encodes_sendRows {r : Byte × Byte × (Byte → Byte → Instr)} (hr : r ∈ sendRows) : Encodes r.1 r.2.2 := by
  fin_cases hr <;> exact encodes_of_decodeOpcode fun _ _ => rfl

section SendData

variable {s : State} {m sel : BitVec 3} {w : CommandWord} {a b : Byte}

/-- A size without a selector, or a range that passes SAMPLE_SIZE, is an illegal operand (R262, R321). -/
theorem sendOp_of_illegal (h : log2Length b = none ∨ s.cfg.sampleSize < a.toNat + b.toNat + 2) :
    sendOp m w a b s = .next (s.raiseFault .illegalOperand) := by
  unfold sendOp
  split
  · rfl
  · next sel hsel => rw [if_pos (h.resolve_left (by simp [hsel]))]

theorem sendOp_of_refused (hsel : log2Length b = some sel) (hr : a.toNat + b.toNat + 2 ≤ s.cfg.sampleSize)
    (hs : s.sessState ≠ 5#3) : sendOp m w a b s = .next (s.respond .refused 0x00#8) := by
  simp [sendOp, hsel, Nat.not_lt.mpr hr, stWaitingForCommand, hs]

theorem sendOp_of_no_room (hsel : log2Length b = some sel) (hr : a.toNat + b.toNat + 2 ≤ s.cfg.sampleSize)
    (hs : s.sessState = 5#3) (hroom : s.txRoom b.toNat = false) : sendOp m w a b s = .next (s.hold w) := by
  simp [sendOp, hsel, Nat.not_lt.mpr hr, stWaitingForCommand, hs, hroom]

theorem sendOp_of_room {u : State} (hsel : log2Length b = some sel) (hr : a.toNat + b.toNat + 2 ≤ s.cfg.sampleSize)
    (hs : s.sessState = 5#3) (hroom : s.txRoom b.toNat = true)
    (hu : (s.frameSample m sel a.toNat b.toNat).cbPushAll .tx
      ((s.frameSample m sel a.toNat b.toNat).readBytes .sample a.toNat (b.toNat + 2)) = some u) :
    sendOp m w a b s = .next (u.respond .ok 0x00#8) := by
  simp [sendOp, hsel, Nat.not_lt.mpr hr, stWaitingForCommand, hs, hroom, hu]

end SendData

/-- Settles O26: the operands come first, then the session state, then the room in TX. -/
theorem sendDataDoesNotSend : Obligations.SendDataDoesNotSend := by
  intro r hrow
  obtain ⟨m, -, hexec⟩ := exec_sendRows hrow
  refine ⟨encodes_sendRows hrow, fun s a b => ⟨fun h => ?fault, fun k hk hb hr =>
    ⟨fun hs => ?refused, fun hs hroom => ?held⟩⟩⟩
  case fault =>
    exact completes_illegalOperand ((hexec a b s).trans (sendOp_of_illegal (h.imp_left log2Length_eq_none)))
  case refused =>
    exact completes_respond .refused ((hexec a b s).trans (sendOp_of_refused (log2Length_of_pow hk hb) hr hs))
  case held =>
    have hfull : s.txRoom b.toNat = false := decide_eq_false (Nat.not_le.mpr hroom)
    exact ⟨_, (hexec a b s).trans (sendOp_of_no_room (log2Length_of_pow hk hb) hr hs hfull), by simp,
      frame_setPend s s.port _⟩

/-! ### The message (R185, R262, R351) -/

section PushAll

variable {s u : State} {i : Inst} {vs : List Byte}

/-- Several pushes change the write count of their buffer and its slots (R124, R262). -/
theorem frame_of_cbPushAll (h : s.cbPushAll i vs = some u) : Frame [.wr i, .bytes (.cbMem i)] s u := by
  induction vs generalizing s with
  | nil => cases h; exact (Frame.refl _).mono (by simp)
  | cons v rest ih =>
    rw [State.cbPushAll] at h
    split at h
    · cases h
    · next w hw => exact ((frame_of_cbPush hw).trans (ih h)).mono (by simp)

theorem wr_of_cbPushAll (h : s.cbPushAll i vs = some u) :
    (u.cbc i).wr = (s.cbc i).wr + BitVec.ofNat 8 vs.length := by
  induction vs generalizing s with
  | nil => cases h; simp
  | cons v rest ih =>
    rw [State.cbPushAll] at h
    split at h
    · cases h
    · next w hw =>
      rw [ih h, cbc_of_cbPush hw, if_pos rfl, List.length_cons, BitVec.ofNat_add, BitVec.add_assoc,
        BitVec.add_comm (BitVec.ofNat 8 rest.length)]

/-- Several pushes leave alone every slot that none of them takes (R124, R23). -/
theorem readByte_other_of_cbPushAll (h : s.cbPushAll i vs = some u) {x : Nat}
    (hx : ∀ j < vs.length, x ≠ slotOf (s.cfg.cap i) ((s.cbc i).wr + BitVec.ofNat 8 j)) :
    u.readByte (.cbMem i) x = s.readByte (.cbMem i) x := by
  induction vs generalizing s with
  | nil => cases h; rfl
  | cons v rest ih =>
    rw [State.cbPushAll] at h
    split at h
    · cases h
    · next w hw =>
      have hfirst : x ≠ slotOf (s.cfg.cap i) (s.cbc i).wr := by simpa using hx 0 (by simp)
      have hwr : (w.cbc i).wr = (s.cbc i).wr + 1#8 := by rw [cbc_of_cbPush hw, if_pos rfl]
      refine (ih h fun j hj => ?_).trans (readByte_other_of_cbPush hw hfirst)
      have hnext := hx (j + 1) (by simpa using hj)
      rwa [BitVec.ofNat_add, BitVec.add_comm (BitVec.ofNat 8 j), ← BitVec.add_assoc, ← hwr, ← cfg_of_cbPush hw] at hnext

end PushAll

section Message

variable (s : State) (m sel : BitVec 3) (a n : Nat)

/-- The frame byte of a message of mode `m` (R94, R262). -/
def messageFrame (m sel : BitVec 3) : Byte := makeFrame (classValue 3#2) sel (m.setWidth 8)

/-- The checksum of the message whose payload of `n` bytes stands behind address `a` of SAMPLE (R185, R262). -/
def State.messageCheck : Byte := checksum 0xFF#8 (messageFrame m sel :: s.readBytes .sample (a + 1) n)

/-- The bytes of that message (R262). -/
def State.message : List Byte :=
  messageFrame m sel :: s.readBytes .sample (a + 1) n ++ [s.messageCheck m sel a n]

theorem length_message : (s.message m sel a n).length = n + 2 := by
  simp [State.message, State.readBytes]

/-- The frame byte is class DATA, the mode, and the selector of the length in its place (R94, R262). -/
theorem messageFrame_eq {k : Nat} (hk : k ≤ 5) :
    messageFrame m (BitVec.ofNat 3 k) = 0xC0#8 ||| m.setWidth 8 ||| (BitVec.ofNat 8 k <<< 3) := by
  have hsel : (BitVec.ofNat 3 k).setWidth 8 = BitVec.ofNat 8 k :=
    BitVec.eq_of_toNat_eq (by simp only [BitVec.toNat_setWidth, BitVec.toNat_ofNat]; omega)
  have hmode : m.setWidth 8 &&& 0x07#8 = m.setWidth 8 := by revert m; decide
  rw [messageFrame, makeFrame, hsel, hmode]
  rfl

/-- The frame byte is written where no payload byte is read (R351). -/
theorem frameSample_eq :
    s.frameSample m sel a n =
      (s.sampleWrite a (messageFrame m sel)).sampleWrite (a + n + 1) (s.messageCheck m sel a n) := by
  have hpayload : (s.sampleWrite a (messageFrame m sel)).readBytes .sample (a + 1) n =
      s.readBytes .sample (a + 1) n := by
    refine List.map_congr_left fun j _ => ?_
    rw [readByte_sampleWrite, if_neg (by omega)]
  rw [State.messageCheck, ← hpayload]
  rfl

theorem frame_frameSample : Frame [.bytes .sample] s (s.frameSample m sel a n) :=
  ((frame_sampleWrite s a _).trans (frame_sampleWrite _ _ _)).mono (by simp)

theorem readByte_frameSample (x : Nat) :
    (s.frameSample m sel a n).readByte .sample x =
      if x = a + n + 1 then s.messageCheck m sel a n
      else if x = a then messageFrame m sel else s.readByte .sample x := by
  simp only [frameSample_eq, readByte_sampleWrite, true_and]

/-- What SEND_DATA queues is the frame byte, the payload as it was, and the checksum (R262). -/
theorem readBytes_frameSample :
    (s.frameSample m sel a n).readBytes .sample a (n + 2) = s.message m sel a n := by
  have hpayload : (s.frameSample m sel a n).readBytes .sample (a + 1) n = s.readBytes .sample (a + 1) n := by
    refine List.map_congr_left fun j hj => ?_
    have hlt := List.mem_range.mp hj
    rw [readByte_frameSample, if_neg (by omega), if_neg (by omega)]
  have hfirst : (s.frameSample m sel a n).readByte .sample a = messageFrame m sel := by
    rw [readByte_frameSample, if_neg (by omega), if_pos rfl]
  have hlast : (s.frameSample m sel a n).readByte .sample (a + 1 + n) = s.messageCheck m sel a n := by
    rw [readByte_frameSample, if_pos (by omega)]
  rw [readBytes_succ, readBytes_concat, hpayload, hfirst, hlast, State.message, List.cons_append]

/-- With room in TX the whole message is pushed (R262). -/
theorem cbPushAll_message (hv : s.cfg.valid = true) (hroom : n + 2 ≤ s.cfg.cap .tx - (s.cbSize .tx).toNat) :
    ∃ u, (s.frameSample m sel a n).cbPushAll .tx (s.message m sel a n) = some u := by
  refine cbPushAll_isSome (s := s.frameSample m sel a n) hv ?_
  have hsize : (s.frameSample m sel a n).cbSize .tx = s.cbSize .tx := rfl
  have hcap : (s.frameSample m sel a n).cfg = s.cfg := rfl
  rw [hsize, hcap, length_message]
  omega

end Message

/-- Settles O27: SAMPLE is framed first, and the bytes of the frame are then pushed to TX. -/
theorem sendDataSendsMessage : Obligations.SendDataSendsMessage := by
  intro r hrow s a b k hv hk hb hr hs hroom
  obtain ⟨m, hmode, hexec⟩ := exec_sendRows hrow
  have hsel := log2Length_of_pow hk hb
  obtain ⟨u, hu⟩ := cbPushAll_message s m (BitVec.ofNat 3 k) a.toNat b.toNat hv hroom
  have hframed := frame_frameSample s m (BitVec.ofNat 3 k) a.toNat b.toNat
  have hpush := frame_of_cbPushAll hu
  have hsample (x : Nat) : (u.respond .ok 0x00#8).readByte .sample x = _ :=
    (readByte_respond ..).trans ((hpush (.bytes .sample) (by simp) x).trans (readByte_frameSample ..))
  rw [hmode, ← messageFrame_eq m hk]
  refine ⟨_, (hexec a b s).trans (sendOp_of_room hsel hr hs (decide_eq_true hroom)
    ((readBytes_frameSample ..).symm ▸ hu)), ?queue, ?wr, fun x hx => ?slots, ?first, ?last, fun x hx hx' => ?sample,
    ((hframed.trans hpush).mono (by simp)).answers .ok 0x00#8 (by simp) (by simp)⟩
  case queue =>
    have hqueue := queue_pushAll (s := s.frameSample m (BitVec.ofNat 3 k) a.toNat b.toNat) hv hu .tx
    rw [if_pos rfl] at hqueue
    exact (queue_respond ..).trans hqueue
  case wr =>
    have hwr := wr_of_cbPushAll hu
    rw [length_message, BitVec.ofNat_add, BitVec.ofNat_toNat, BitVec.setWidth_eq] at hwr
    exact hwr
  case slots =>
    have hslots := readByte_other_of_cbPushAll hu fun j hj => hx j (by rwa [length_message] at hj)
    exact (readByte_respond ..).trans (hslots.trans (hframed (.bytes (.cbMem .tx)) (by simp) x))
  case first => rw [hsample, if_neg (by omega), if_pos rfl]
  case last => rw [hsample, if_pos rfl]; rfl
  case sample => rw [hsample, if_neg hx', if_neg hx]

/-! ### The status operations (R264 to R267) -/

/-- Settles O28: each operation only responds, with its register. -/
theorem statusReads : Obligations.StatusReads := by
  refine ⟨?_, ?_, ?_, ?_, fun s => ?reads, fun c => ⟨rfl, rfl, rfl, rfl⟩⟩
  case reads =>
    simp only [BitVec.ofNat_toNat]
    exact ⟨completes_respond .ok rfl, completes_respond .ok rfl, completes_respond .ok rfl, completes_respond .ok rfl⟩
  all_goals exact encodes_of_decodeOpcode fun _ _ => rfl

end Sys2Proof.Machine
end

section
/-! PROOFS of the statements about 46_dispatcher.md. First that the requests follow the queue (R300): what every agent
but DSP keeps, then DSP's pop and a block reset. After it what each kind of event does (R291 to R299), and the handshake
(R291). -/

namespace Sys2Proof.Machine

/-! ### What every agent but DSP keeps (R300) -/

section Requests

variable {s t u : State}

/-- From `s` to `t` no request was recorded, and EQ lost no event. -/
def RequestsKept (s t : State) : Prop := t.devReqs = s.devReqs ∧ ∃ added, t.queue .eq = s.queue .eq ++ added

/-- The requests and EQ are the same. A state made by updates of other fields meets each condition by computation. -/
theorem RequestsKept.of_same (hreqs : t.devReqs = s.devReqs := by rfl) (heq : t.cbEq = s.cbEq := by rfl)
    (hc : t.cfg = s.cfg := by rfl) (he : t.epoch = s.epoch := by rfl) : RequestsKept s t :=
  ⟨hreqs, [], by rw [queue_congr (i := .eq) heq hc he, List.append_nil]⟩

theorem RequestsKept.trans (hu : RequestsKept s u) (ht : RequestsKept u t) : RequestsKept s t := by
  obtain ⟨hreqs, added, hq⟩ := hu
  obtain ⟨hreqs', added', hq'⟩ := ht
  exact ⟨hreqs'.trans hreqs, added ++ added', by rw [hq', hq, List.append_assoc]⟩

theorem devReqs_of_agentPart (h : t.agentPart = s.agentPart) : t.devReqs = s.devReqs := by
  simpa [State.agentPart] using congrArg State.devReqs h

/-- A push adds to EQ at its new end, or leaves it alone (R124). -/
theorem requestsKept_of_cbPush {i : Inst} {v : Byte} (hv : s.cfg.valid = true) (h : s.cbPush i v = some u) :
    RequestsKept s u := by
  refine ⟨devReqs_of_agentPart (agentPart_of_cbPush h), ?_⟩
  by_cases hi : i = .eq
  · subst hi; exact ⟨[v], queue_push hv h⟩
  · exact ⟨[], by rw [queue_push_other h (Ne.symm hi), List.append_nil]⟩

/-- A pop of another buffer leaves EQ alone (R125). -/
theorem requestsKept_of_cbPop {i : Inst} {v : Byte} (h : s.cbPop i = some (v, u)) (hi : Inst.eq ≠ i) :
    RequestsKept s u :=
  ⟨devReqs_of_agentPart (agentPart_of_cbPop h), [], by rw [queue_pop_other h hi, List.append_nil]⟩

theorem requestsKept_finishFrame (k : ErrKind) : RequestsKept s (s.finishFrame k) := by
  cases k <;> exact .of_same

theorem requestsKept_commandCase (f : Byte) : RequestsKept s (commandCase f s) := by
  unfold commandCase writeCase
  split
  · exact .of_same
  · split
    · split <;> exact .of_same
    · exact requestsKept_finishFrame _

theorem requestsKept_enterCurrent : RequestsKept s s.enterCurrent := by
  unfold State.enterCurrent
  split <;> exact .of_same

/-- SES pushes events and pops RX; it takes no event and presents no request (R240, R246). -/
theorem SesEffect.requestsKept (h : SesEffect s t) (hv : s.cfg.valid = true) : RequestsKept s t := by
  cases h with
  | stay | bad | init | sent | ackTimeout | speedSet | startTimeout | stopTimeout => exact .of_same
  | enter => exact requestsKept_enterCurrent
  | send k b u _ _ hu => split <;> exact (requestsKept_of_cbPush hv hu).trans .of_same
  | started u _ hu | stopped u _ hu => exact (requestsKept_of_cbPush hv hu).trans .of_same
  | pushed f e u _ hu => exact (requestsKept_of_cbPush hv hu).trans (requestsKept_finishFrame _)
  | ack u _ hu | notAck r u _ hu | beginRead f u _ hu | payload f k r u _ hu =>
    exact (requestsKept_of_cbPop hu (by decide)).trans .of_same
  | frame f k u _ hu | mismatch f r u _ hu =>
    exact (requestsKept_of_cbPop hu (by decide)).trans (requestsKept_finishFrame _)
  | good f r u _ _ hu => exact (requestsKept_of_cbPop hu (by decide)).trans (requestsKept_commandCase f)
  | timeout | stray => exact requestsKept_finishFrame _

/-- A port pushes events and pops TX; it takes no event and presents no request (R152, R153, R324). -/
theorem PortEffect.requestsKept {i : Instr} (h : PortEffect i s t) (hv : s.cfg.valid = true) : RequestsKept s t := by
  cases h with
  | answer | fault | hold | load | write => exact .of_same
  | drop c =>
    exact ⟨(devReqs_of_agentPart (agentPart_countDrop c) :), [], by
      rw [queue_respond, queue_countDrop, List.append_nil]⟩
  | push c v u _ hu => exact (requestsKept_of_cbPush hv hu).trans .of_same
  | pop v u hu => exact (requestsKept_of_cbPop hu (by decide)).trans .of_same
  | send m sel a n u _ _ _ hu =>
    obtain ⟨c, rfl⟩ := state_of_cbPushAll hu
    exact .of_same

theorem requestsKept_expire (w : Wait) : RequestsKept s (s.expire w) := by
  obtain h | ⟨-, -, h⟩ | ⟨p, x, -, -, -, h⟩ := expire_cases s w <;> rw [h] <;> exact .of_same

/-! ### The requests follow the queue (R290, R298, R300) -/

/-- From `s` to `t` the oldest event was taken from EQ while no request was presented, recorded, and presented. -/
def RequestPresented (s t : State) : Prop :=
  ∃ e, s.dspPhase = .waitEvent ∧ s.cbEmpty .eq = false ∧ s.queue .eq = e :: t.queue .eq ∧ kindOf e ≠ 6#3 ∧
    t.devReqs = s.devReqs ++ [(kindOf e, infoOf e)] ∧ t.devRequest = some e

/-- From `s` to `t` the oldest event, one of kind 6, was taken from EQ, and no request is presented. -/
def EventConsumed (s t : State) : Prop :=
  ∃ e, s.dspPhase = .waitEvent ∧ s.queue .eq = e :: t.queue .eq ∧ kindOf e = 6#3 ∧ t.devRequest = none

/-- From `s` to `t` a request was presented, or none was recorded and no event but one of kind 6 was lost outside a
block reset. -/
def RequestsFollow (s t : State) : Prop :=
  RequestPresented s t ∨
  (t.devReqs = s.devReqs ∧
    ((∃ added, t.queue .eq = s.queue .eq ++ added) ∨ EventConsumed s t ∨
      (t.queue .eq = [] ∧ t.epoch = s.epoch + 1)))

theorem RequestsKept.follow (h : RequestsKept s t) : RequestsFollow s t := by
  obtain ⟨hreqs, hq⟩ := h
  exact .inr ⟨hreqs, .inl hq⟩

/-- DSP's pop takes the oldest event, and records nothing yet (R125, R290). -/
theorem event_of_cbPop {e : Byte} (h : s.cbPop .eq = some (e, u)) :
    s.cbEmpty .eq = false ∧ s.queue .eq = e :: u.queue .eq ∧ u.devReqs = s.devReqs := by
  obtain ⟨hne, -, -⟩ := state_of_cbPop h
  exact ⟨hne, queue_pop h, devReqs_of_agentPart (agentPart_of_cbPop h)⟩

/-- DSP takes the oldest event, and presents it or, of kind 6, consumes it (R290, R291, R298). -/
theorem DspEffect.requestsFollow (h : DspEffect s t) : RequestsFollow s t := by
  cases h with
  | stay => exact RequestsKept.follow .of_same
  | request k n u hp hk hu =>
    obtain ⟨hne, hq, hreqs⟩ := event_of_cbPop hu
    exact .inl ⟨mkEvent k n, hp, hne, hq, by simpa using hk, by simp [hreqs], rfl⟩
  | consume n u hp hu =>
    obtain ⟨-, hq, hreqs⟩ := event_of_cbPop hu
    exact .inr ⟨hreqs, .inr (.inl ⟨mkEvent 6#3 n, hp, hq, kindOf_mkEvent .., rfl⟩)⟩

/-- A block reset empties EQ and keeps the recorded requests (R38, R340). -/
theorem requestsFollow_driveReset (level : Bool) : RequestsFollow s (s.driveReset level) := by
  obtain ⟨-, h⟩ | ⟨-, -, h⟩ | ⟨-, -, h⟩ := driveReset_cases s level <;> rw [h]
  · exact RequestsKept.follow .of_same
  · exact .inr ⟨rfl, .inr (.inr ⟨queue_of_empty rfl, rfl⟩)⟩
  · exact RequestsKept.follow .of_same

theorem StepEffect.requestsFollow (h : StepEffect s t) (hv : s.cfg.valid = true) : RequestsFollow s t := by
  cases h with
  | stay | ackRequest | ackBad => exact RequestsKept.follow .of_same
  | port p w t _ h => exact ((h.requestsKept hv).follow :)
  | ses t h => exact (h.requestsKept hv).follow
  | dsp t h => exact h.requestsFollow
  | expire w => exact (requestsKept_expire w).follow
  | ackForward => exact (requestsKept_finishFrame .success).follow
  | drive level => exact requestsFollow_driveReset level

end Requests

/-- Settles O49: only DSP takes an event or records a request, and a block reset empties the queue. -/
theorem requestsFollowQueueOrder : Obligations.RequestsFollowQueueOrder := by
  intro s t h
  obtain ⟨hv, i, n, hstep⟩ := step_effect h
  exact (hstep.requestsFollow hv :)

/-! ### The events (R291 to R299) -/

/-- Writing the registers and the history of DSP changes nothing else (R34, R38). -/
theorem frame_dispatcher (s : State) (p : DspPhase) (e : Byte) (r : List (BitVec 3 × BitVec 5)) :
    Frame [.dspEv, .dspPhase, .devReqs] s { s with dspPhase := p, dspEv := e, devReqs := r } := by
  intro f hf
  cases f with
  | dspEv | dspPhase | devReqs => simp at hf
  | rd i | wr i | drop i => cases i <;> rfl
  | bytes sp => exact fun a => readByte_congr (by cases sp with | cbMem i => cases i <;> rfl | _ => rfl) rfl
  | _ => rfl

/-- A row with a device operation is what its kind decodes to, and its kind is not 6 (R103, R291). -/
theorem decodeEvent_of_requestRow {r : BitVec 3 × (BitVec 5 → Instr)} (hr : r ∈ requestRows) (n : BitVec 5) :
    decodeEvent (mkEvent r.1 n) = r.2 n ∧ r.1 ≠ 6#3 := by
  simp only [requestRows, List.mem_cons, List.not_mem_nil, or_false] at hr
  obtain rfl | rfl | rfl | rfl | rfl | rfl | rfl := hr <;> simp [decodeEvent]

theorem decodeEvent_kind6 (n : BitVec 5) : decodeEvent (mkEvent 6#3 n) = .eventRequest n := by
  simp [decodeEvent]

/-- Settles O45: the event of a kind other than 6 is presented. -/
theorem eventsPresentRequests : Obligations.EventsPresentRequests := by
  intro r hr s n
  obtain ⟨hdec, hk⟩ := decodeEvent_of_requestRow hr n
  have hexec : exec (r.2 n) s = .next (s.presentRequest r.1 n) := by
    rw [← hdec, exec_decodeEvent, kindOf_mkEvent, infoOf_mkEvent, if_neg hk]
  exact ⟨hdec, _, hexec, rfl, rfl, rfl, rfl, frame_dispatcher s .waitAck (mkEvent r.1 n) _⟩

/-- Settles O46: the event of kind 6 leaves DSP at its pop, and the requests as they are. -/
theorem requestKindIsConsumed : Obligations.RequestKindIsConsumed := by
  intro s n
  exact ⟨decodeEvent_kind6 n, _, rfl, rfl, rfl, rfl,
    (frame_dispatcher s .waitEvent (mkEvent 6#3 n) s.devReqs).of_same (by simp [Field.same])⟩

/-! ### The handshake (R10, R291) -/

section Handshake

variable {s : State}

theorem transition_ackRequest (hr : s.rstAsserted = false) : transition .ackRequest s = .next (ackRequest s) := by
  simp [transition, hr]

/-- A presented request ends only by DEV's acknowledgement (R291). -/
theorem dspStep_of_waitAck (hp : s.dspPhase = .waitAck) : dspStep s = .next s := by
  simp [dspStep, hp]

theorem dspStep_of_empty (hp : s.dspPhase = .waitEvent) (he : s.cbEmpty .eq = true) : dspStep s = .next s := by
  simp [dspStep, hp, he]

/-- While DEV's port holds an operation it acknowledges no request (R10). -/
theorem ackRequest_of_held (hd : s.pendOf .dev ≠ none) : ackRequest s = s := by
  unfold ackRequest
  split
  · rw [if_neg hd]
  · rfl

theorem ackRequest_of_idle (hp : s.dspPhase = .waitAck) (hd : s.pendOf .dev = none) :
    ackRequest s = { s with dspPhase := .waitEvent } := by
  simp [ackRequest, hp, hd]

theorem ackRequest_of_waitEvent (hp : s.dspPhase = .waitEvent) : ackRequest s = s := by
  simp [ackRequest, hp]

theorem frame_dspPhase (s : State) (p : DspPhase) : Frame [.dspPhase] s { s with dspPhase := p } :=
  (frame_dispatcher s p s.dspEv s.devReqs).of_same (by simp [Field.same])

end Handshake

/-- Settles O47, by DSP's phase and what DEV's port holds. -/
theorem requestHandshake : Obligations.RequestHandshake := by
  intro s hr
  rw [transition_dsp hr, transition_ackRequest hr]
  refine ⟨fun hp => ⟨dspStep_of_waitAck hp, fun hd => ?held, fun hd => ?idle⟩,
    fun hp => ⟨?nothing, fun he => dspStep_of_empty hp he⟩⟩
  case held => rw [ackRequest_of_held hd]
  case idle =>
    rw [ackRequest_of_idle hp hd]
    exact ⟨_, rfl, rfl, frame_dspPhase s .waitEvent⟩
  case nothing => rw [ackRequest_of_waitEvent hp]

end Sys2Proof.Machine
end

section
/-! PROOFS of the statements about 60_exceptions.md: that every opcode outside the opcode map only takes the fault
ILLEGAL_OPCODE (R311, R136, R159). -/

namespace Sys2Proof.Machine

/-! ### Illegal opcodes (R311) -/

/-- An operation that runs the illegal opcodes' shared meaning takes the fault: its bit of FAULT, its status, and
nothing else (R310, R311). -/
theorem completes_illegalOp {i : Instr} {s : State} (h : exec i s = illegalOp s) :
    Completes i s fun t => t.fault = s.fault ||| 0x01#8 ∧ Answers 0xFF#8 0#8 [.fault] s t :=
  ⟨_, h, rfl, answers_raiseFault s .illegalOpcode⟩

/-- A refused opcode selects its own row, whatever its operands (R85). -/
theorem encodes_illegalRows {r : Byte × Instr} (hr : r ∈ illegalRows) : Encodes r.1 fun _ _ => r.2 := by
  fin_cases hr <;> exact encodes_of_decodeOpcode fun _ _ => rfl

/-- The refused rows have one meaning (R136, R159). -/
theorem exec_illegalRows {r : Byte × Instr} (hr : r ∈ illegalRows) (s : State) : exec r.2 s = illegalOp s := by
  fin_cases hr <;> rfl

/-- Settles O29: the refused rows and the catch-all are decoded apart, and run the same operation. -/
theorem illegalOpcodeFaults : Obligations.IllegalOpcodeFaults := by
  refine ⟨fun r hr => encodes_illegalRows hr, fun opc hl hr => ?catchAll, fun s =>
    ⟨fun r hr => completes_illegalOp (exec_illegalRows hr s), fun opc => completes_illegalOp rfl⟩⟩
  case catchAll => exact encodes_of_decodeOpcode (decodeOpcode_unlisted hl hr)

end Sys2Proof.Machine
end

section
/-! PROOFS of the statements about 70_reset_and_hazards.md: the state after reset (R341, R342) and the block reset (R340),
that a quiescent block does not step (R358), and that the deadlock of a held EQ_PUSH lasts (R353). -/

namespace Sys2Proof.Machine

/-! ### Reset (R340 to R342) -/

/-- After reset no space lists a byte, so every address is inside its space (R341). -/
theorem addressesInSpace_resetWith (c : Config) : AddressesInSpace (State.resetWith c) := by
  intro sp
  rw [mem_resetWith]
  rfl

theorem canonicalMemory_resetWith (c : Config) : CanonicalMemory (State.resetWith c) := by
  intro sp
  rw [mem_resetWith]
  exact Memory.wf_nil

theorem heldInv_resetWith (c : Config) : HeldInv (State.resetWith c) := fun p h hp =>
  absurd hp (by simp [pendOf_resetWith])

/-- Settles O55: nothing is written, held or counted after reset. -/
theorem resetIsLegal : Obligations.ResetIsLegal := fun c hv =>
  ⟨canonicalMemory_resetWith c, addressesInSpace_resetWith c, blockInv_resetWith hv, heldInv_resetWith c, rfl, rfl, rfl,
    rfl, rfl, rfl, pendOf_resetWith c⟩

/-- While the reset input is asserted no stimulus but the input itself has an effect (R340). -/
theorem transition_of_rstAsserted {s : State} {x : Stimulus} (hr : s.rstAsserted = true)
    (hx : ∀ level, x ≠ .resetPin level) : transition x s = .next s := by
  cases x with
  | resetPin level => exact absurd rfl (hx level)
  | ses | dsp | issue p w | resume p | expire w | ackRequest | ackForward => simp [transition, hr]

/-- Settles O56: a release is the reset state with the histories of the state before it. -/
theorem blockResetEffect : Obligations.BlockResetEffect := by
  intro s x hr
  refine ⟨transition_of_rstAsserted hr, s.driveReset false, rfl, ?_⟩
  obtain ⟨hlevel, -⟩ | ⟨-, -, h⟩ | ⟨-, hr', -⟩ := driveReset_cases s false
  · cases hlevel
  · rw [h]
    exact ⟨rfl, rfl, rfl, rfl, rfl, rfl, fun i => by cases i <;> exact ⟨rfl, rfl, rfl⟩, rfl, rfl, rfl, rfl, rfl, rfl, rfl,
      rfl, pendOf_resetWith s.cfg⟩
  · rw [hr] at hr'; cases hr'

/-! ### Quiescence (R358) -/

section Quiescence

variable {s : State}

/-- In a quiescent legal state SES waits for a byte of an empty RX, or sleeps (R240, R242). -/
theorem Quiescent.sesWaits (hq : Quiescent s) (hi : BlockInv s) :
    (s.cbEmpty .rx = true ∧ ((s.sessState = 3#3 ∧ s.sessPhase = .getAck) ∨ (s.sessState = 5#3 ∧ AwaitsByte s))) ∨
    (s.sessState.toNat ≤ 5 ∧ s.sessPhase = .sleepRestart) ∨ (s.sessState = 4#3 ∧ s.sessPhase = .sleepSpeed) := by
  obtain ⟨-, hwait, -⟩ := hq
  obtain ⟨-, hagree, -⟩ := id hi
  cases hp : s.sessPhase with
  | getAck =>
    simp only [hp, SesAgrees] at hwait hagree
    obtain ⟨hs, -⟩ := hagree
    exact .inl ⟨hwait, .inl ⟨hs, rfl⟩⟩
  | getFrame =>
    simp only [hp, SesAgrees] at hwait hagree
    obtain ⟨hs, -⟩ := hagree
    exact .inl ⟨hwait, .inr ⟨hs, .inl hp⟩⟩
  | sleepRestart =>
    simp only [hp, SesAgrees] at hagree
    refine .inr (.inl ⟨?_, rfl⟩)
    obtain ⟨hs | hs, -⟩ := hagree <;> rw [hs] <;> decide
  | sleepSpeed =>
    simp only [hp, SesAgrees] at hagree
    obtain ⟨hs, -⟩ := hagree
    exact .inr (.inr ⟨hs, rfl⟩)
  | command f pt =>
    rw [hp] at hwait
    cases pt with
    | payload k =>
      have hpt : (∃ j, CmdPoint.payload k = .payload j) ∨ CmdPoint.payload k = .checksum := .inl ⟨k, rfl⟩
      obtain ⟨hs, hc, hsel⟩ := hi.startsRead hp hpt
      exact .inl ⟨hwait, .inr ⟨hs, .inr ⟨f, _, hp, hc, hsel, hpt⟩⟩⟩
    | checksum =>
      obtain ⟨hs, hc, hsel⟩ := hi.startsRead hp (.inr rfl)
      exact .inl ⟨hwait, .inr ⟨hs, .inr ⟨f, _, hp, hc, hsel, .inr rfl⟩⟩⟩
    | push e | forward => exact hwait.elim
  | entry | txPut k | pushStart | pushStop | stuck => rw [hp] at hwait; exact hwait.elim

/-- With no wait expired SES goes on waiting (R157, R358). -/
theorem Quiescent.ses_waits_on (hq : Quiescent s) (hi : BlockInv s) (hx : s.sesExpired = false)
    (hr : s.rstAsserted = false) : transition .ses s = .next s := by
  obtain ⟨he, ⟨hs, hp⟩ | ⟨hs, hw⟩⟩ | ⟨hs, hp⟩ | ⟨hs, hp⟩ := hq.sesWaits hi
  · rw [transition_ses hr, sesStep_of_getAck hs hp, ackStep_of_empty he, hx]; rfl
  · rw [transition_ses_of_silence hr hs hw he, hx]; rfl
  · rw [transition_ses hr, sesStep_of_sleepRestart hs hp, hx]; rfl
  · rw [transition_ses hr, sesStep_of_sleepSpeed hs hp, hx]; rfl

/-- In a quiescent state no write forward is presented to DEV (R222). -/
theorem Quiescent.ackForward_eq (hq : Quiescent s) : ackForward s = s := by
  obtain ⟨-, hwait, -⟩ := hq
  unfold ackForward
  split
  · next f hp => rw [hp] at hwait; exact hwait.elim
  · rfl

end Quiescence

/-- Settles O59: each agent stands at a wait whose condition is false. -/
theorem quiescentBlockDoesNotStep : Obligations.QuiescentBlockDoesNotStep := by
  intro s p hi hq hx hr
  obtain ⟨hidle, -, hdsp, heq, -⟩ := id hq
  refine ⟨hq.ses_waits_on hi hx hr, ?dsp, ?resume, ?ackRequest, ?ackForward⟩
  case dsp => rw [transition_dsp hr, dspStep_of_empty hdsp heq]
  case resume => rw [transition_resume hr, resume_of_idle (hidle p)]
  case ackRequest => rw [transition_ackRequest hr, ackRequest_of_waitEvent hdsp]
  case ackForward => rw [transition_ackForward hr, hq.ackForward_eq]

/-! ### The deadlock of a held EQ_PUSH (R353) -/

/-- What the deadlock rests on but for what DEV's port holds: the parameters, EQ with its draw, DSP, and the recorded
requests. The drop count of EQ is forgotten, because EQ_TRY_PUSH goes on counting (R152), and so is every other piece. -/
def State.requestPart (s : State) : State :=
  { State.reset with
    cfg := s.cfg, cbEq := { s.cbEq with drop := 0#8 }, dspPhase := s.dspPhase, dspEv := s.dspEv, devReqs := s.devReqs
    epoch := s.epoch }

/-- From `s` to `t` everything that the deadlock rests on is the same. -/
def DeadlockKept (s t : State) : Prop := t.requestPart = s.requestPart ∧ t.pendOf .dev = s.pendOf .dev

section Deadlock

variable {s t u : State}

/-- A state made by updates of other fields meets both conditions by computation. -/
theorem DeadlockKept.of_same (hpart : t.requestPart = s.requestPart := by rfl) (hpend : t.pend = s.pend := by rfl) :
    DeadlockKept s t := ⟨hpart, by rw [State.pendOf, State.pendOf, hpend]⟩

theorem DeadlockKept.queue_eq (h : DeadlockKept s t) : t.queue .eq = s.queue .eq :=
  (congrArg (State.queue · .eq) h.1 :)

theorem DeadlockKept.devReqs_eq (h : DeadlockKept s t) : t.devReqs = s.devReqs :=
  (congrArg State.devReqs h.1 :)

theorem DeadlockKept.deadlocked (h : DeadlockKept s t) (hd : Deadlocked s) : Deadlocked t := by
  obtain ⟨hpart, hdev⟩ := h
  obtain ⟨hphase, hfull, hpush⟩ := hd
  have hphase' : t.dspPhase = s.dspPhase := (congrArg State.dspPhase hpart :)
  have hfull' : t.cbFull .eq = s.cbFull .eq := (congrArg (State.cbFull · .eq) hpart :)
  exact ⟨hphase'.trans hphase, hfull'.trans hfull, by rwa [hdev]⟩

/-! Each shared operation on the part. -/

theorem requestPart_setCbc {i : Inst} (hi : i ≠ .eq) (c : Cbc) : (s.setCbc i c).requestPart = s.requestPart := by
  cases i with
  | eq => exact absurd rfl hi
  | rx | tx => rfl

theorem requestPart_of_cbPush {i : Inst} {v : Byte} (hi : i ≠ .eq) (h : s.cbPush i v = some u) :
    u.requestPart = s.requestPart := by
  obtain ⟨-, rfl⟩ := state_of_cbPush h
  exact requestPart_setCbc hi _

theorem requestPart_of_cbPop {i : Inst} {v : Byte} (hi : i ≠ .eq) (h : s.cbPop i = some (v, u)) :
    u.requestPart = s.requestPart := by
  obtain ⟨-, -, rfl⟩ := state_of_cbPop h
  exact requestPart_setCbc hi _

/-- A full queue takes no push (R124). -/
theorem cbPush_ne_some_of_full {i : Inst} {v : Byte} (hf : s.cbFull i = true) : s.cbPush i v ≠ some u := by
  simp [cbPush_eq, hf]

theorem requestPart_finishFrame (k : ErrKind) : (s.finishFrame k).requestPart = s.requestPart := by
  cases k <;> rfl

theorem requestPart_commandCase (f : Byte) : (commandCase f s).requestPart = s.requestPart := by
  unfold commandCase writeCase
  split
  · rfl
  · split
    · split <;> rfl
    · rfl

theorem requestPart_enterCurrent : s.enterCurrent.requestPart = s.requestPart := by
  unfold State.enterCurrent
  split <;> rfl

/-! Each kind of transition, on a full queue. -/

/-- SES reaches EQ by pushes alone, and none has room (R246). -/
theorem SesEffect.requestPart (h : SesEffect s t) (hf : s.cbFull .eq = true) : t.requestPart = s.requestPart := by
  cases h with
  | stay | bad | init | sent | ackTimeout | speedSet | startTimeout | stopTimeout => rfl
  | enter => exact requestPart_enterCurrent
  | started u _ hu | pushed f e u _ hu | stopped u _ hu => exact absurd hu (cbPush_ne_some_of_full hf)
  | send k b u _ _ hu => split <;> exact (requestPart_of_cbPush (by decide) hu :)
  | ack u _ hu | notAck r u _ hu | beginRead f u _ hu | payload f k r u _ hu =>
    exact (requestPart_of_cbPop (by decide) hu :)
  | frame f k u _ hu | mismatch f r u _ hu =>
    exact (requestPart_finishFrame _).trans (requestPart_of_cbPop (by decide) hu)
  | good f r u _ _ hu => exact (requestPart_commandCase f).trans (requestPart_of_cbPop (by decide) hu)
  | timeout | stray => exact requestPart_finishFrame _

theorem SesEffect.deadlockKept (h : SesEffect s t) (hf : s.cbFull .eq = true) : DeadlockKept s t := by
  refine .of_same (h.requestPart hf) ?_
  obtain h | rfl := h.portPart_or_bad
  · exact pend_of_portPart h
  · rfl

/-- A port reaches EQ by pushes alone, and none has room; a refused one counts a drop at most (R152, R153). -/
theorem PortEffect.requestPart {i : Instr} (h : PortEffect i s t) (hf : s.cbFull .eq = true) :
    t.requestPart = s.requestPart := by
  cases h with
  | answer | fault | hold | load | write => rfl
  | drop c => cases c <;> rfl
  | push c v u hc hu =>
    obtain rfl | ⟨rfl, -⟩ := hc
    · exact absurd hu (cbPush_ne_some_of_full hf)
    · exact (requestPart_of_cbPush (by decide) hu :)
  | pop v u hu => exact (requestPart_of_cbPop (by decide) hu :)
  | send m sel a n u _ _ _ hu =>
    obtain ⟨c, rfl⟩ := state_of_cbPushAll hu
    rfl

/-- An answer idles the port that runs and no other (R82). -/
theorem pendOf_respond_other {q : Port} (hq : q ≠ s.port) (st : Status) (d : Byte) (h : u.portPart = s.portPart) :
    (u.respond st d).pendOf q = s.pendOf q := by
  have hport : u.port = s.port := (congrArg State.port h :)
  rw [pendOf_respond, hport, if_neg hq, State.pendOf, State.pendOf, pend_of_portPart h]

/-- A port operation leaves what every other port holds alone (R35). -/
theorem PortEffect.pendOf_other {i : Instr} (h : PortEffect i s t) {q : Port} (hq : q ≠ s.port) :
    t.pendOf q = s.pendOf q := by
  cases h with
  | answer st d => exact pendOf_respond_other hq st d rfl
  | hold w => rw [pendOf_hold, if_neg hq]
  | fault c => rw [pendOf_raiseFault, if_neg hq]
  | load v => exact (pendOf_respond_other (s := { s with ckAcc := v }) hq _ _ rfl :)
  | drop c => exact pendOf_respond_other hq _ _ (portPart_setCbc c _)
  | push c v u _ hu => exact pendOf_respond_other hq _ _ (portPart_of_cbPush hu)
  | pop v u hu =>
    rw [← pendOf_respond_other hq .ok v (portPart_of_cbPop hu)]
    rfl
  | write a v => exact (pendOf_respond_other (s := s.sampleWrite a v) hq _ _ rfl :)
  | send m sel a n u _ _ _ hu =>
    obtain ⟨c, rfl⟩ := state_of_cbPushAll hu
    exact (pendOf_respond_other (s := s.frameSample m sel a n) hq _ _ (portPart_setCbc .tx c) :)

/-- An operation that runs on a port other than DEV's keeps the deadlock. -/
theorem deadlockKept_exec {p : Port} {w : CommandWord} (hv : s.cfg.valid = true) (hf : s.cbFull .eq = true)
    (hp : p ≠ .dev) (h : exec (decodeCommand w) { s with port := p } = .next t) : DeadlockKept s t := by
  have heffect : PortEffect (decodeCommand w) { s with port := p } t :=
    exec_command_effect hv (encode_decodeCommand w) h
  exact ⟨(heffect.requestPart hf :), (heffect.pendOf_other hp.symm :)⟩

/-- DEV's port holds its push and issues nothing (R35). -/
theorem deadlockKept_issue {p : Port} {w : CommandWord} (hv : s.cfg.valid = true) (hd : Deadlocked s)
    (h : issue p w s = .next t) : DeadlockKept s t := by
  obtain ⟨-, hfull, a, x, hdev⟩ := hd
  by_cases hp : portExists s.cfg p = true ∧ s.pendOf p = none
  · obtain ⟨hexists, hidle⟩ := hp
    rw [issue_of_enabled w hexists hidle] at h
    exact deadlockKept_exec hv hfull (by rintro rfl; simp [hdev] at hidle) h
  · rw [issue_of_disabled w ((not_and_or.mp hp).imp_left Bool.eq_false_iff.mpr)] at h
    cases h; exact .of_same

/-- DEV's push, run again on the full queue, goes on waiting with its flag as it is, because it never times out (R154,
R155); no other held operation touches it. -/
theorem deadlockKept_resume {p : Port} (hv : s.cfg.valid = true) (hd : Deadlocked s)
    (h : resume p s = .next t) : DeadlockKept s t := by
  obtain ⟨-, hfull, a, x, hdev⟩ := hd
  by_cases hp : p = .dev
  · subst hp
    have hwaits : resume .dev s = .next (State.hold { s with port := .dev } (mkCommand 0x61#8 a 0#8)) := by
      rw [resume_of_held hdev, decodeCommand_mkCommand]
      exact exec_eqPush_of_waiting hfull (by simp)
    rw [hwaits] at h
    cases h
    have hflag : State.portExpired { s with port := .dev } = x :=
      portExpired_of_held (s := { s with port := .dev }) hdev
    exact ⟨rfl, by rw [pendOf_hold, if_pos rfl, hflag, hdev]⟩
  · cases hheld : s.pendOf p with
    | none => rw [resume_of_idle hheld] at h; cases h; exact .of_same
    | some held => rw [resume_of_held hheld] at h; exact deadlockKept_exec hv hfull hp h

/-- TMR has no finite wait of DEV's port to expire (R12, R154). -/
theorem deadlockKept_expire (hd : Deadlocked s) (w : Wait) : DeadlockKept s (s.expire w) := by
  obtain ⟨-, -, a, x, hdev⟩ := hd
  obtain h | ⟨-, -, h⟩ | ⟨p, held, -, hp, hfinite, h⟩ := expire_cases s w <;> rw [h]
  · exact .of_same
  · exact .of_same
  · have hne : Port.dev ≠ p := by
      rintro rfl
      obtain rfl := Option.some.inj (hp.symm.trans hdev)
      simp [portWaitMs_eqPush] at hfinite
    exact ⟨rfl, by rw [pendOf_setPend, if_neg hne]⟩

/-- Driving the reset input ends the deadlock only where it resets the block (R340). -/
theorem deadlockKept_driveReset {level : Bool} (he : (s.driveReset level).epoch = s.epoch) :
    DeadlockKept s (s.driveReset level) := by
  obtain ⟨-, h⟩ | ⟨-, -, h⟩ | ⟨-, -, h⟩ := driveReset_cases s level
  · rw [h]; exact .of_same
  · rw [h] at he; exact absurd he (Nat.succ_ne_self s.epoch)
  · rw [h]; exact .of_same

/-- No agent's transition ends the deadlock: DSP waits for the acknowledgement, DEV for its push, and the push for DSP's
pop (R10, R291). -/
theorem deadlockKept_agent {x : Stimulus} (hv : s.cfg.valid = true) (hd : Deadlocked s)
    (hr : s.rstAsserted = false) (hx : ∀ level, x ≠ .resetPin level) (h : transition x s = .next t) :
    DeadlockKept s t := by
  obtain ⟨hphase, hfull, a, flag, hdev⟩ := id hd
  have hheld : s.pendOf .dev ≠ none := by simp [hdev]
  cases x with
  | ses => rw [transition_ses hr] at h; exact (sesStep_effect h).deadlockKept hfull
  | dsp => rw [transition_dsp hr, dspStep_of_waitAck hphase] at h; cases h; exact .of_same
  | issue p w => rw [transition_issue hr] at h; exact deadlockKept_issue hv hd h
  | resume p => rw [transition_resume hr] at h; exact deadlockKept_resume hv hd h
  | expire w => rw [transition_expire hr] at h; cases h; exact deadlockKept_expire hd w
  | ackRequest => rw [transition_ackRequest hr, ackRequest_of_held hheld] at h; cases h; exact .of_same
  | ackForward => rw [transition_ackForward hr, ackForward_of_held hheld] at h; cases h; exact .of_same
  | resetPin level => exact absurd rfl (hx level)

/-- Of all transitions only the release of the reset input can end the deadlock. -/
theorem deadlockKept_transition {x : Stimulus} (hv : s.cfg.valid = true) (hd : Deadlocked s)
    (h : transition x s = .next t) (he : t.epoch = s.epoch) : DeadlockKept s t := by
  by_cases hx : ∃ level, x = .resetPin level
  · obtain ⟨level, rfl⟩ := hx
    cases h; exact deadlockKept_driveReset he
  · cases hr : s.rstAsserted with
    | true => rw [transition_of_rstAsserted hr (not_exists.mp hx)] at h; cases h; exact .of_same
    | false => exact deadlockKept_agent hv hd hr (not_exists.mp hx) h

end Deadlock

/-- A step in a legal configuration takes one transition, from the state that no longer waits to take it (R9). -/
theorem transition_of_step {s t : State} (h : step s = .next t) :
    s.cfg.valid = true ∧ ∃ x i n, transition x { s with inputs := i, tick := n } = .next t := by
  unfold step at h
  split at h
  · next hv =>
    obtain ⟨i, n, hn⟩ := nextStimulus_state s
    exact ⟨hv, _, i, n, hn ▸ h⟩
  · cases h

/-- Settles O48: no transition of any agent changes what the deadlock rests on, and only a block reset does. -/
theorem everyStepKeepsDeadlock : Obligations.EveryStepKeepsDeadlock := by
  intro s t hd h he
  obtain ⟨hv, x, i, n, htransition⟩ := transition_of_step h
  have hkept : DeadlockKept s t :=
    (deadlockKept_transition (s := { s with inputs := i, tick := n }) hv hd htransition he :)
  exact ⟨hkept.deadlocked hd, hkept.devReqs_eq, hkept.queue_eq⟩

end Sys2Proof.Machine
end
